-- ==== Sys2Proof/Word.lean ====
section
/-! DEFINITION. The two bit-vector types of the block: bytes and 16-bit values (00_scope.md R9). -/

namespace Sys2Proof

/-- A byte: 8 bits, bit 7 the most significant (R9). -/
abbrev Byte := BitVec 8

/-- A 16-bit value: a CRC remainder or the `value` operand of an encode (R9, R8 `VALUE_W = 16`). -/
abbrev Half := BitVec 16

/-- A condition set is an 8-bit vector in which bit `code - 1` is set (60_exceptions.md R123). -/
abbrev CondSet := BitVec 8

end Sys2Proof
end

