-- ==== Sys2Proof/Config.lean ====
section
/-! DEFINITION. What a build fixes (00_scope.md R7, R8) and the values the spec leaves free. -/

namespace Sys2Proof

/-- The parameters of 00_scope.md R8 that a build of the block fixes. No operation writes them
(10_state.md R18). DESIGN CHOICE (log 7): they are data of the instance, so that every statement
holds for every build. -/
structure Params where
  /-- HAS_DSP: whether the State Dispatcher and Device State exist (D29). -/
  hasDsp       : Bool
  /-- GATE_MASK: decoder conditions that make the dispatcher skip a report (D21). -/
  gateMask     : CondSet
  /-- STRICT_DOMAIN: whether the wrapper encodes reject values outside their domain (D6). -/
  strictDomain : Bool
  /-- NMAX: largest RX buffer the port accepts; `none` for every finite buffer (D15, log 8). -/
  nmax         : Option Nat
  deriving DecidableEq, Repr

/-- The decided values of R8; NMAX is OPEN there and is left unbounded, as D15 allows. -/
def Params.decided : Params :=
  { hasDsp := true, gateMask := 0#8, strictDomain := true, nmax := none }

namespace Config

/-- `MAGIC`: the first two bytes of every command and frame (R7). -/
def magic : List Byte := [0x4C#8, 0x54#8]

/-- `CMD_HDR`: the command header template, offsets 0 to 9 (R7); offsets 7 and 9 are overwritten. -/
def cmdTemplate : List Byte :=
  [0x4C#8, 0x54#8, 0x09#8, 0x00#8, 0x20#8, 0x57#8, 0x00#8, 0x00#8, 0x01#8, 0x00#8]

/-- `QRY_HDR`: the QueryAll header, offsets 0 to 9 (R7). -/
def qryHeader : List Byte :=
  [0x4C#8, 0x54#8, 0x09#8, 0x00#8, 0x00#8, 0x53#8, 0x00#8, 0x00#8, 0x01#8, 0x00#8]

/-- `SUBHDR`: the state-report sub-header (R7). -/
def subHeader : List Byte := [0x00#8, 0x20#8]

/-- `PKT_LEN`: the wire length of every command (R7). -/
def packetLength : Nat := 12

/-- `SUB_PWR`: power subcommand and power key (R7). -/
def subPower : Byte := 0x00#8
/-- `SUB_BRT`: brightness subcommand and key (R7). -/
def subBrightness : Byte := 0x02#8
/-- `SUB_CCT`: colour-temperature-code subcommand and key (R7). -/
def subTempCode : Byte := 0x03#8

/-- `CAT_UPD`: report category "single-field update" (R7). -/
def catUpdate : Byte := 0x02#8
/-- `CAT_SNAP`: report category "full snapshot" (R7). -/
def catSnapshot : Byte := 0x03#8

/-- `POLY`: the CRC generator polynomial, 16 low coefficients (R7). -/
def crcPoly : Half := 0x1021#16
/-- `INIT`: the CRC initial value (R7). -/
def crcInit : Half := 0x0000#16

/-- `P <= 251`: the largest report payload (20_memory.md R30). -/
abbrev payloadMax : Nat := 251

/-- FREE VALUE (log 6): the data ST.RD delivers for `st.on` while its valid bit is 0, one for each
instance and each of its draws. Any value (10_state.md R21). -/
opaque freeOn : (device draw : Nat) → Bool

/-- FREE VALUE (log 6): the same for `st.brightness`. -/
opaque freeBrightness : (device draw : Nat) → Byte

/-- FREE VALUE (log 6): the same for `st.temp_code`. -/
opaque freeTempCode : (device draw : Nat) → Byte

end Config

end Sys2Proof
end

