-- ==== Sys2Proof/Syntax.lean ====
section
/-! DEFINITION. The instructions: one constructor per row of spec/opcode_table.json. Twelve host
operations (30_encoding.md R58) and twelve wire units (R46 to R54). -/

namespace Sys2Proof

/-- The selector of ST.RD: 0 `on`, 1 `brightness`, 2 `temp_code` (43_dispatch.md R115). -/
inductive Selector where
  | on
  | brightness
  | tempCode
  deriving DecidableEq, Repr

/-- Where an instruction is read from: an operation from a transaction on the OP port (R58), a
packet or frame from the RX buffer at the cursor (R46, R51), a report from a payload (R52). -/
inductive Space where
  | op
  | wire
  | report
  deriving DecidableEq, Repr

/-- The instruction set. -/
inductive Instr where
  /-- CRC.CLR (40_crc.md R70). -/
  | crcClr
  /-- CRC.UPD `b` (R71). -/
  | crcUpd (b : Byte)
  /-- CRC.RD (R72). -/
  | crcRd
  /-- CRC.SUM `s` (R73). -/
  | crcSum (s : List Byte)
  /-- ENC.CMD `sub`, `value` (41_encoder.md R79); `value` is a signed 16-bit operand. -/
  | encCmd (sub : Byte) (value : Half)
  /-- ENC.PWR `value` (R81). -/
  | encPwr (value : Half)
  /-- ENC.BRT `value` (R82). -/
  | encBrt (value : Half)
  /-- ENC.CCT `value` (R83). -/
  | encCct (value : Half)
  /-- ENC.QRY (R84). -/
  | encQry
  /-- DEC.BUF `buf` (42_decoder.md R91). -/
  | decBuf (buf : List Byte)
  /-- DSP.APPLY `p`, `dc` (43_dispatch.md R107). -/
  | dspApply (p : List Byte) (dc : CondSet)
  /-- ST.RD `sel` (R115). -/
  | stRd (sel : Selector)
  /-- W.CMD: a CMD12 unit (R47): subcommand, value byte, checksum field. -/
  | wCmd (sub value : Byte) (crc : Half)
  /-- W.CMD.PWR: a CMD12 unit with subcommand 00. -/
  | wCmdPwr (value : Byte) (crc : Half)
  /-- W.CMD.BRT: a CMD12 unit with subcommand 02. -/
  | wCmdBrt (value : Byte) (crc : Half)
  /-- W.CMD.CCT: a CMD12 unit with subcommand 03. -/
  | wCmdCct (value : Byte) (crc : Half)
  /-- W.QRY: the QRY12 unit (R48), a constant. -/
  | wQry
  /-- W.FRAME: any other unit at the cursor (R50, R51), its bytes as read: the magic (right or
  wrong), the length byte and the body; or what is left of a buffer that ends inside the unit. -/
  | wFrame (unit : List Byte)
  /-- RPT.UPD.PWR: payload `02 00 vv` (R109). -/
  | rptUpdPwr (value : Byte)
  /-- RPT.UPD.BRT: payload `02 02 vv` (R110). -/
  | rptUpdBrt (value : Byte)
  /-- RPT.UPD.CCT: payload `02 03 vv` (R111). -/
  | rptUpdCct (value : Byte)
  /-- RPT.SNAP: payload `03 pp uu bb tt` (R112). -/
  | rptSnap (power unknown brightness code : Byte)
  /-- RPT.UPD.other: payload `02 kk vv`, any other key (R113). -/
  | rptUpdOther (key value : Byte)
  /-- RPT.other: a payload of any other category (R114). -/
  | rptOther (category : Byte)
  deriving DecidableEq, Repr

/-- The space an instruction is read from. -/
def Instr.space : Instr → Space
  | .crcClr => .op
  | .crcUpd _ => .op
  | .crcRd => .op
  | .crcSum _ => .op
  | .encCmd _ _ => .op
  | .encPwr _ => .op
  | .encBrt _ => .op
  | .encCct _ => .op
  | .encQry => .op
  | .decBuf _ => .op
  | .dspApply _ _ => .op
  | .stRd _ => .op
  | .wCmd _ _ _ => .wire
  | .wCmdPwr _ _ => .wire
  | .wCmdBrt _ _ => .wire
  | .wCmdCct _ _ => .wire
  | .wQry => .wire
  | .wFrame _ => .wire
  | .rptUpdPwr _ => .report
  | .rptUpdBrt _ => .report
  | .rptUpdCct _ => .report
  | .rptSnap _ _ _ _ => .report
  | .rptUpdOther _ _ => .report
  | .rptOther _ => .report

end Sys2Proof
end

