-- ==== Sys2Proof/WellFormed.lean ====
section
/-! DEFINITION. Which terms of `Instr` are instructions: the rows of the table that share words are
told apart by the fields the table gives them (30_encoding.md R59, R61), and a W.FRAME holds exactly
one unit (R51). -/

namespace Sys2Proof

/-- A byte of a sequence that has been found long enough. -/
def WellFormed.byteAt (u : List Byte) (k : Nat) : Byte := u.getD k 0#8

/-- The byte is one of the three codes 00, 02, 03 that subcommands and keys share (R59). -/
def WellFormed.isNamedCode (b : Byte) : Bool := b = 0x00#8 || b = 0x02#8 || b = 0x03#8

/-- The unit has the fixed bytes of CMD12 at offsets 0 to 6 and 8 (R47). -/
def WellFormed.isCommandShape (u : List Byte) : Bool :=
  u.length = 12 && u.take 7 = [0x4C#8, 0x54#8, 0x09#8, 0x00#8, 0x20#8, 0x57#8, 0x00#8]
    && WellFormed.byteAt u 8 = 0x01#8

/-- The unit is the constant QRY12 (R48). -/
def WellFormed.isQueryShape (u : List Byte) : Bool :=
  u = [0x4C#8, 0x54#8, 0x09#8, 0x00#8, 0x00#8, 0x53#8, 0x00#8, 0x00#8, 0x01#8, 0x00#8, 0x94#8, 0x74#8]

/-- One unit: at least one byte, and no byte past the `3 + L` its length byte gives it (R51). -/
def WellFormed.isOneUnit (u : List Byte) : Bool :=
  u.length ≠ 0 && (u.length < 3 || u.length ≤ 3 + (WellFormed.byteAt u 2).toNat)

/-- Well-formedness, checked constructor by constructor. -/
def Instr.wellFormed : Instr → Bool
  | .crcClr => true
  | .crcUpd _ => true
  | .crcRd => true
  | .crcSum _ => true
  | .encCmd _ _ => true
  | .encPwr _ => true
  | .encBrt _ => true
  | .encCct _ => true
  | .encQry => true
  | .decBuf _ => true
  | .dspApply _ _ => true
  | .stRd _ => true
  | .wCmd sub _ _ => !WellFormed.isNamedCode sub
  | .wCmdPwr _ _ => true
  | .wCmdBrt _ _ => true
  | .wCmdCct _ _ => true
  | .wQry => true
  | .wFrame u => WellFormed.isOneUnit u && !WellFormed.isCommandShape u && !WellFormed.isQueryShape u
  | .rptUpdPwr _ => true
  | .rptUpdBrt _ => true
  | .rptUpdCct _ => true
  | .rptSnap _ _ _ _ => true
  | .rptUpdOther key _ => !WellFormed.isNamedCode key
  | .rptOther category => category ≠ 0x02#8 && category ≠ 0x03#8

/-- Well-formedness as a proposition. -/
abbrev Instr.WellFormed (i : Instr) : Prop := i.wellFormed = true

end Sys2Proof
end

