-- ==== Sys2Proof/Decode.lean ====
section
/-! DEFINITION. Decoding, total on any bytes and rejecting by name, for the three spaces an
instruction is read from; then the encoder, written from the same layouts (30_encoding.md). -/

namespace Sys2Proof

/-! ### Byte order (00_scope.md R10, 20_memory.md R36) -/

/-- `hi(c) = c[15:8]` (R10). -/
def hi (c : Half) : Byte := c.extractLsb' 8 8

/-- `lo(c) = c[7:0]` (R10). -/
def lo (c : Half) : Byte := c.extractLsb' 0 8

/-- `be16(c) = [hi(c), lo(c)]` (R10). -/
def be16 (c : Half) : List Byte := [hi c, lo c]

/-- The 16-bit value of two bytes, the first the high one. -/
def ofBe16 (h l : Byte) : Half := h ++ l

/-- The byte of `s` at offset `k`; 0 past the end, which no rule reads. -/
def byteAt (s : List Byte) (k : Nat) : Byte := s.getD k 0#8

/-! ### Rejections -/

/-- Why bytes are no instruction. -/
inductive DecodeError where
  /-- An OP transaction without an operation code. -/
  | emptyTransaction
  /-- An operation code outside the table of 30_encoding.md R58, reserved by R63. -/
  | reservedOperation (code : Byte)
  /-- The operand bytes do not fit the code's operands (log 4). -/
  | malformedOperands (code : Byte)
  /-- An ST.RD selector other than 0, 1, 2, reserved by 43_dispatch.md R115. -/
  | reservedSelector (sel : Byte)
  /-- No byte at the cursor: the frame step's precondition `cursor < N` fails (42_decoder.md R93). -/
  | emptyUnit
  /-- A payload of length 0, or shorter than its category's fields: no report unit
  (43_dispatch.md R108, R116). -/
  | shortPayload
  /-- A payload of more than 251 bytes, which the payload space does not hold (20_memory.md R30, log 22). -/
  | longPayload
  deriving DecidableEq, Repr

/-! ### Operations on OP -/

/-- A sequence operand of a transaction: its length byte, then its bytes, to the end of what is
given (95_test_vectors.md section 6). The length byte is the length's low 8 bits, so that a sequence
of any finite length can be presented. DESIGN CHOICE (log 3). -/
def decodeSeq : List Byte → Option (List Byte)
  | [] => none
  | n :: s => if n = BitVec.ofNat 8 s.length then some s else none

/-- The operand layout of `decodeSeq`, written. -/
def encodeSeq (s : List Byte) : List Byte := BitVec.ofNat 8 s.length :: s

/-- No operand bytes. -/
def decodeNone (code : Byte) (i : Instr) : List Byte → Except DecodeError Instr
  | [] => .ok i
  | _ :: _ => .error (.malformedOperands code)

/-- One operand byte. -/
def decodeByte (code : Byte) (f : Byte → Except DecodeError Instr) : List Byte → Except DecodeError Instr
  | [b] => f b
  | _ => .error (.malformedOperands code)

/-- A signed 16-bit `value`, high byte first (95_test_vectors.md section 6). -/
def decodeValue (code : Byte) (f : Half → Instr) : List Byte → Except DecodeError Instr
  | [h, l] => .ok (f (ofBe16 h l))
  | _ => .error (.malformedOperands code)

/-- A subcommand byte, then a `value`. -/
def decodeSubValue (code : Byte) (f : Byte → Half → Instr) : List Byte → Except DecodeError Instr
  | [sub, h, l] => .ok (f sub (ofBe16 h l))
  | _ => .error (.malformedOperands code)

/-- A sequence operand. -/
def decodeSeqOperand (code : Byte) (f : List Byte → Instr) (args : List Byte) : Except DecodeError Instr :=
  match decodeSeq args with
  | some s => .ok (f s)
  | none => .error (.malformedOperands code)

/-- A sequence operand, then a condition set (an 8-bit vector, R123). -/
def decodeSeqCond (code : Byte) (f : List Byte → CondSet → Instr) (args : List Byte) : Except DecodeError Instr :=
  match args.getLast?, decodeSeq args.dropLast with
  | some dc, some s => .ok (f s dc)
  | _, _ => .error (.malformedOperands code)

/-- The selector operand of ST.RD; any other value is a reserved operand (43_dispatch.md R115). -/
def decodeSelector (sel : Byte) : Except DecodeError Instr :=
  if sel = 0x00#8 then .ok (.stRd .on)
  else if sel = 0x01#8 then .ok (.stRd .brightness)
  else if sel = 0x02#8 then .ok (.stRd .tempCode)
  else .error (.reservedSelector sel)

/-- The operation a code and its operand bytes select: the table of 30_encoding.md R58. Every other
code is reserved (R63). -/
def decodeOperation (code : Byte) (args : List Byte) : Except DecodeError Instr :=
  if code = 0x00#8 then decodeNone code .crcClr args
  else if code = 0x01#8 then decodeByte code (fun b => .ok (.crcUpd b)) args
  else if code = 0x02#8 then decodeNone code .crcRd args
  else if code = 0x03#8 then decodeSeqOperand code .crcSum args
  else if code = 0x10#8 then decodeSubValue code .encCmd args
  else if code = 0x11#8 then decodeValue code .encPwr args
  else if code = 0x12#8 then decodeValue code .encBrt args
  else if code = 0x13#8 then decodeValue code .encCct args
  else if code = 0x14#8 then decodeNone code .encQry args
  else if code = 0x20#8 then decodeSeqOperand code .decBuf args
  else if code = 0x30#8 then decodeSeqCond code .dspApply args
  else if code = 0x31#8 then decodeByte code decodeSelector args
  else .error (.reservedOperation code)

/-- One OP transaction: the operation code, then its operand bytes. -/
def decodeOp : List Byte → Except DecodeError Instr
  | [] => .error .emptyTransaction
  | code :: args => decodeOperation code args

/-! ### Wire units at the cursor -/

/-- How many of the bytes from the cursor on belong to the unit there (30_encoding.md R51): `3 + L`,
whatever the two bytes before the length byte are; all that is left when the buffer ends first. -/
def unitLength (rest : List Byte) : Nat :=
  if rest.length < 3 then rest.length else min rest.length (3 + (byteAt rest 2).toNat)

/-- The fixed bytes of CMD12, offsets 0 to 6 and 8 (R47). -/
def isCommandUnit (u : List Byte) : Bool :=
  u.length = 12 && u.take 7 = [0x4C#8, 0x54#8, 0x09#8, 0x00#8, 0x20#8, 0x57#8, 0x00#8] && byteAt u 8 = 0x01#8

/-- The constant packet QRY12 (R48). -/
def queryUnit : List Byte :=
  [0x4C#8, 0x54#8, 0x09#8, 0x00#8, 0x00#8, 0x53#8, 0x00#8, 0x00#8, 0x01#8, 0x00#8, 0x94#8, 0x74#8]

/-- A CMD12 unit by its subcommand (R59): the three wrappers' units first, any other is W.CMD. -/
def classifyCommand (sub value : Byte) (c : Half) : Instr :=
  if sub = 0x00#8 then .wCmdPwr value c
  else if sub = 0x02#8 then .wCmdBrt value c
  else if sub = 0x03#8 then .wCmdCct value c
  else .wCmd sub value c

/-- The row of the table a unit's bytes belong to (R59, log 20). -/
def classifyUnit (u : List Byte) : Instr :=
  if isCommandUnit u then classifyCommand (byteAt u 7) (byteAt u 9) (ofBe16 (byteAt u 10) (byteAt u 11))
  else if u = queryUnit then .wQry
  else .wFrame u

/-- The unit at the front of the unconsumed bytes. Every non-empty byte sequence has one: there is no
search for the next magic (R51). -/
def decodeWire (rest : List Byte) : Except DecodeError Instr :=
  if rest = [] then .error .emptyUnit else .ok (classifyUnit (rest.take (unitLength rest)))

/-! ### Report units in a payload -/

/-- Offset of the key in a category 02 payload: the spec's reading D16, kept as a named constant. -/
def keyOffset : Nat := 1
/-- Offset of the value in a category 02 payload: the spec's reading D16. -/
def valueOffset : Nat := 2

/-- A category 02 unit by its key (30_encoding.md R53). -/
def classifyUpdate (key value : Byte) : Instr :=
  if key = 0x00#8 then .rptUpdPwr value
  else if key = 0x02#8 then .rptUpdBrt value
  else if key = 0x03#8 then .rptUpdCct value
  else .rptUpdOther key value

/-- The report unit of a payload (30_encoding.md R52 to R54). Bytes beyond the fields are ignored
(43_dispatch.md R116); a payload too short for its category's fields, or empty, holds no unit. -/
def decodeReport : List Byte → Except DecodeError Instr
  | [] => .error .shortPayload
  | cat :: rest =>
    if cat = 0x02#8 then
      if rest.length < 2 then .error .shortPayload
      else .ok (classifyUpdate (byteAt (cat :: rest) keyOffset) (byteAt (cat :: rest) valueOffset))
    else if cat = 0x03#8 then
      if rest.length < 4 then .error .shortPayload
      else .ok (.rptSnap (byteAt rest 0) (byteAt rest 1) (byteAt rest 2) (byteAt rest 3))
    else .ok (.rptOther cat)

/-- The report unit of what stands in the payload space, which holds at most 251 bytes (20_memory.md
R30, log 22). -/
def decodePayload (p : List Byte) : Except DecodeError Instr :=
  if p.length ≤ Config.payloadMax then decodeReport p else .error .longPayload

/-- Decoding in the space the bytes come from. -/
def decodeIn : Space → List Byte → Except DecodeError Instr
  | .op, bs => decodeOp bs
  | .wire, bs => decodeWire bs
  | .report, bs => decodePayload bs

/-! ### The encoder -/

/-- A CMD12 unit, offset by offset (R47). -/
def commandUnit (sub value : Byte) (c : Half) : List Byte :=
  [0x4C#8, 0x54#8, 0x09#8, 0x00#8, 0x20#8, 0x57#8, 0x00#8, sub, 0x01#8, value, hi c, lo c]

/-- The selector's operand byte (R115). -/
def selectorByte : Selector → Byte
  | .on => 0x00#8
  | .brightness => 0x01#8
  | .tempCode => 0x02#8

/-- The bytes of an instruction in its own space. -/
def encode : Instr → List Byte
  | .crcClr => [0x00#8]
  | .crcUpd b => [0x01#8, b]
  | .crcRd => [0x02#8]
  | .crcSum s => 0x03#8 :: encodeSeq s
  | .encCmd sub value => 0x10#8 :: sub :: be16 value
  | .encPwr value => 0x11#8 :: be16 value
  | .encBrt value => 0x12#8 :: be16 value
  | .encCct value => 0x13#8 :: be16 value
  | .encQry => [0x14#8]
  | .decBuf buf => 0x20#8 :: encodeSeq buf
  | .dspApply p dc => 0x30#8 :: (encodeSeq p ++ [dc])
  | .stRd sel => [0x31#8, selectorByte sel]
  | .wCmd sub value c => commandUnit sub value c
  | .wCmdPwr value c => commandUnit 0x00#8 value c
  | .wCmdBrt value c => commandUnit 0x02#8 value c
  | .wCmdCct value c => commandUnit 0x03#8 value c
  | .wQry => queryUnit
  | .wFrame u => u
  | .rptUpdPwr v => [0x02#8, 0x00#8, v]
  | .rptUpdBrt v => [0x02#8, 0x02#8, v]
  | .rptUpdCct v => [0x02#8, 0x03#8, v]
  | .rptSnap p u b t => [0x03#8, p, u, b, t]
  | .rptUpdOther k v => [0x02#8, k, v]
  | .rptOther g => [g]

/-! ### The words of spec/opcode_table.json -/

/-- The bytes of a table word of `nbits` bits: one big-endian bit string, the byte at offset 0 first
(30_encoding.md R46), so bit 0 is the least significant bit of the LAST byte the row names (log 12). -/
def tableBytes (nbits w : Nat) : List Byte :=
  (List.range (nbits / 8)).map fun k => BitVec.ofNat 8 (w >>> (nbits - 8 * (k + 1)))

/-- The operation codes of R58 and how many operand bytes the shortest transaction of each has. -/
def operandBytes (code : Byte) : Option Nat :=
  if code = 0x00#8 then some 0
  else if code = 0x01#8 then some 1
  else if code = 0x02#8 then some 0
  else if code = 0x03#8 then some 1
  else if code = 0x10#8 then some 3
  else if code = 0x11#8 then some 2
  else if code = 0x12#8 then some 2
  else if code = 0x13#8 then some 2
  else if code = 0x14#8 then some 0
  else if code = 0x20#8 then some 1
  else if code = 0x30#8 then some 2
  else if code = 0x31#8 then some 1
  else none

/-- The space a table word belongs to, and its bytes there with every byte the row gives no bits at
0. Words of 8 bits are operation codes, or a category where no operation has the code; longer words
are packets and frames where they open with the magic, reports where they do not (log 12). -/
def tableUnit (nbits w : Nat) : Space × List Byte :=
  let bs := tableBytes nbits w
  if bs.take 2 = [0x4C#8, 0x54#8] then
    (.wire, bs ++ List.replicate (3 + (byteAt bs 2).toNat - bs.length) 0#8)
  else if bs.length = 1 then
    match operandBytes (byteAt bs 0) with
    | some n => (.op, bs ++ List.replicate n 0#8)
    | none => (.report, bs)
  else (.report, bs)

/-- The instruction the decoder reads from a word of the opcode table. -/
def decodeTableWord (nbits w : Nat) : Option Instr :=
  match decodeIn (tableUnit nbits w).1 (tableUnit nbits w).2 with
  | .ok i => some i
  | .error _ => none

end Sys2Proof
end

