-- ==== Sys2Proof/Machine/State.lean ====
section
/-! DEFINITION. The state of one instance of the block (10_state.md R13), the values on its ports
(R25), the reasons a step can stop, and the state after reset (R27). -/

namespace Sys2Proof.Machine

/-- The eight conditions (60_exceptions.md R123). -/
inductive Condition where
  | invalidValue
  | headerMismatch
  | truncatedFrame
  | checksumMismatch
  | unrecognizedPrefix
  | unrecognizedKey
  | unrecognizedCategory
  | shortReport
  deriving DecidableEq, Repr

/-- The kind of a record (42_decoder.md R90). -/
inductive Kind where
  | report
  | dropped
  | truncated
  deriving DecidableEq, Repr

/-- One element of DEC.BUF's output (R90). -/
structure Record where
  kind    : Kind
  cond    : CondSet
  start   : Nat
  flen    : Nat
  payload : List Byte
  deriving DecidableEq, Repr

/-- A record as REC delivers it, beside the condition set the dispatcher returned for it: `none`
where the record was not dispatched (R91, 43_dispatch.md R107; log 21). -/
structure Emitted where
  record     : Record
  dispatched : Option CondSet
  deriving DecidableEq, Repr

/-- The data field of ST.RD: one bit for `on`, a signed byte for the other two (R13, R115). -/
inductive ReadData where
  | flag (on : Bool)
  | code (v : Byte)
  deriving DecidableEq, Repr

/-- What RES delivers (10_state.md R25). -/
inductive Res where
  /-- The two bytes of CRC.RD and CRC.SUM, high byte first (40_crc.md R72, R73). -/
  | sum (high low : Byte)
  /-- An encode that handed a packet to TX. -/
  | ok
  /-- An encode that raised InvalidValue, with the offending operand (60_exceptions.md R125). -/
  | invalidValue (v : Half)
  /-- `(valid, data)` of ST.RD (43_dispatch.md R115). -/
  | read (valid : Bool) (data : ReadData)
  /-- The condition set of DSP.APPLY (R107). -/
  | conds (c : CondSet)
  deriving DecidableEq, Repr

/-- What the last operation delivered on the ports RES, TX and REC (10_state.md R25, log 1). -/
structure Ports where
  res : Option Res := none
  tx  : Option (List Byte) := none
  records : List Emitted := []
  deriving DecidableEq, Repr

/-- The Device State registers and their valid bits (R13, R19). -/
structure DeviceState where
  on          : Bool
  onV         : Bool
  brightness  : Byte
  brightnessV : Bool
  tempCode    : Byte
  tempCodeV   : Bool
  deriving DecidableEq, Repr

/-- What the host asks of the instance: an operation, as one OP transaction, or a reset
(70_reset_and_hazards.md R143; log 2, log 19). -/
inductive HostRequest where
  | operation (bytes : List Byte)
  | reset
  deriving DecidableEq, Repr

/-- The state of one instance. -/
structure State where
  /-- The build's parameters (00_scope.md R8); no instruction writes them (10_state.md R18). -/
  params  : Params
  /-- `crc`, the host-visible running remainder (R15). -/
  crc     : Half
  /-- `st.*`, the Device State (R19). -/
  st      : DeviceState
  /-- The RX buffer of the DEC.BUF in progress (20_memory.md R31); a DEC.BUF is in progress while
  `cursor < rx.length` (log 10). -/
  rx      : List Byte
  /-- `cursor`, the decoder's position in `rx` (10_state.md R16). -/
  cursor  : Nat
  /-- The payload of the DSP.APPLY in progress, if one is (20_memory.md R33, log 11). -/
  report  : Option (List Byte)
  /-- What the last operation delivered (R25). -/
  ports   : Ports
  /-- The model's own: the requests the host has still to issue, oldest first (log 2). -/
  pending : List HostRequest
  /-- The model's own: how many free values have been drawn (log 6). -/
  draws   : Nat
  /-- The model's own: which instance of a system this is. Only the free values depend on it (log 6,
  log 16). -/
  device  : Nat
  deriving DecidableEq, Repr

/-- What stops the machine with a fault. The spec has no trap and no access fault (60_exceptions.md
R128, 20_memory.md R35); no step raises one. -/
inductive Fault where
  /-- The view `mired` is read while it has no value (10_state.md R20, 93_implementation_defined.md
  U4). Raised by `State.readMired` only, which no instruction performs. Safe. -/
  | miredHasNoValue
  deriving DecidableEq, Repr

/-- Why an instruction or a request has no meaning. -/
inductive Refusal where
  /-- The instruction has no meaning in the model yet. Raised by `exec`'s refused arms. Safe. -/
  | notModelled (mnemonic : String)
  /-- An OP transaction without an operation code. Raised by `step`. Safe. -/
  | emptyTransaction
  /-- A reserved operation code (30_encoding.md R63). Raised by `step`. Safe. -/
  | reservedOperation (code : Byte)
  /-- Operand bytes that do not fit the code (log 4). Raised by `step`. Safe. -/
  | malformedOperands (code : Byte)
  /-- A reserved ST.RD selector (43_dispatch.md R115). Raised by `step`. Safe. -/
  | reservedSelector (sel : Byte)
  /-- A frame step without a byte at the cursor (42_decoder.md R93's precondition). Raised by `step`
  never: it decodes a unit only while `cursor < N`. Safe. -/
  | noUnitAtCursor
  /-- An operation begun while one is in progress on the instance (70_reset_and_hazards.md R148).
  Raised by the meaning of every host operation. Safe. -/
  | overlappingOperation
  /-- A DEC.BUF of more than NMAX bytes (42_decoder.md R91, log 8). Raised by DEC.BUF. Safe. -/
  | bufferTooLong
  /-- A payload of more than 251 bytes (20_memory.md R30, log 22). Raised by DSP.APPLY, and by `step`
  for a payload in progress. Safe. -/
  | payloadTooLong
  /-- DSP.APPLY, ST.RD or a report unit in a build without HAS_DSP (10_state.md R13, log 13). Raised
  by their meanings. Safe. -/
  | noDispatcher
  deriving DecidableEq, Repr

/-- The Device State after reset: nothing valid (R27). DESIGN CHOICE (log 5): the value registers
hold 0; the spec gives them no value and ST.RD does not show it. -/
def DeviceState.reset : DeviceState :=
  { on := false, onV := false, brightness := 0#8, brightnessV := false, tempCode := 0#8, tempCodeV := false }

/-- The machine right after reset (R27), a build with the decided parameters (R8), and a host that
has issued nothing (log 2). -/
def State.reset : State :=
  { params := Params.decided, crc := 0x0000#16, st := DeviceState.reset, rx := [], cursor := 0,
    report := none, ports := {}, pending := [], draws := 0, device := 0 }

end Sys2Proof.Machine
end

