-- ==== Sys2Proof/Machine/Operands.lean ====
section
/-! DEFINITION. The operand forms: signed bytes, signed 16-bit values, byte sequences by offset, the
selector of ST.RD. -/

namespace Sys2Proof.Machine

/-- `s8(b)`: the two's-complement value of a byte (00_scope.md R10). -/
abbrev s8 (b : Byte) : Int := b.toInt

/-- `u8(b)` (R10). -/
abbrev u8 (b : Byte) : Nat := b.toNat

/-- The `value` operand of an encode, a signed integer of `VALUE_W = 16` bits (R8, 41_encoder.md R79). -/
abbrev signedValue (v : Half) : Int := v.toInt

/-- `byte_of(v)`: `v mod 256` as a byte (R10). Used only where `v` fits a signed byte (30_encoding.md R55). -/
def byteOf (v : Half) : Byte := v.setWidth 8

/-- `low <= v <= high`, on the full operand (41_encoder.md R86). -/
def inDomain (low high : Int) (v : Half) : Bool := low ≤ signedValue v && signedValue v ≤ high

/-- The signed 8-bit range -128 to 127 that every encode tests (R79, R55). -/
def fitsByte (v : Half) : Bool := inDomain (-128) 127 v

/-- `MemRead(a, n)`: the `n` bytes of `s` at offsets `a` to `a + n - 1`, in offset order
(20_memory.md R31); used only where `a + n <= N` (R35). -/
def memRead (s : List Byte) (a n : Nat) : List Byte := (s.drop a).take n

/-- `MemWrite(a, n, v)`, `n` the length of `v`: `s` with the bytes of `v` at offsets `a` on
(20_memory.md R32); used only where `a + n <= 12` (R35). -/
def memWrite (s : List Byte) (a : Nat) (v : List Byte) : List Byte :=
  s.take a ++ v ++ s.drop (a + v.length)

/-- The RX port accepts a buffer of `n` bytes: `n <= NMAX` (42_decoder.md R91); every finite buffer
where NMAX is left open (00_scope.md R8). -/
def accepts (p : Params) (n : Nat) : Bool :=
  match p.nmax with
  | none => true
  | some m => n ≤ m

/-- A payload of `n` bytes fits the payload space: `n <= 251`, whoever writes it (20_memory.md R30). -/
def fitsPayload (n : Nat) : Bool := n ≤ Config.payloadMax

/-- The valid bit a selector names (43_dispatch.md R115). -/
def validBit (st : DeviceState) : Selector → Bool
  | .on => st.onV
  | .brightness => st.brightnessV
  | .tempCode => st.tempCodeV

/-- The value register a selector names (R115). -/
def valueRegister (st : DeviceState) : Selector → ReadData
  | .on => .flag st.on
  | .brightness => .code st.brightness
  | .tempCode => .code st.tempCode

/-- FREE VALUE (log 6): the data field of ST.RD while the valid bit is 0 (10_state.md R21: any
value). DESIGN CHOICE (log 6): it is chosen by the register, the instance's own number and the
instance's own draw count and by nothing else, so that instances of a system, whose numbers differ
(log 16), have unrelated values (60_exceptions.md R134), and so do two draws of one instance. -/
def freeData (device draw : Nat) : Selector → ReadData
  | .on => .flag (Config.freeOn device draw)
  | .brightness => .code (Config.freeBrightness device draw)
  | .tempCode => .code (Config.freeTempCode device draw)

end Sys2Proof.Machine
end

