-- ==== Sys2Proof/Machine/Flags.lean ====
section
/-! DEFINITION. Conditions. The block has no flags register (10_state.md R17): what takes the place
of flags is the condition set of a record or a result (60_exceptions.md R123, R124). -/

namespace Sys2Proof.Machine

/-- The numeric code of a condition (R123). -/
def Condition.code : Condition → Nat
  | .invalidValue => 1
  | .headerMismatch => 2
  | .truncatedFrame => 3
  | .checksumMismatch => 4
  | .unrecognizedPrefix => 5
  | .unrecognizedKey => 6
  | .unrecognizedCategory => 7
  | .shortReport => 8

/-- The empty condition set. -/
def noConditions : CondSet := 0#8

/-- The set `{c}`: bit `code - 1` (R123). -/
def only (c : Condition) : CondSet := 1#8 <<< (c.code - 1)

/-- `note C` (R124): the set with the condition added. It stops nothing. -/
def note (cs : CondSet) (c : Condition) : CondSet := cs ||| only c

/-- `note C` where a test fails, nothing where it passes. -/
def noteIf (fails : Bool) (cs : CondSet) (c : Condition) : CondSet := if fails then note cs c else cs

/-- Membership. -/
def hasCondition (cs : CondSet) (c : Condition) : Bool := cs &&& only c != 0#8

/-- `dc ∩ GATE_MASK ≠ {}` (43_dispatch.md R107, R108). -/
def gated (gate dc : CondSet) : Bool := dc &&& gate != 0#8

/-- Step 1 of the frame step: the two bytes are not the magic (42_decoder.md R93, R94). -/
def badMagic (m : List Byte) : Bool := m != Config.magic

/-- Step 4: the first two semantic bytes are not `00 20`, or there are fewer than two (R93, R98). -/
def badPrefix (sem : List Byte) : Bool := sem.take 2 != Config.subHeader

end Sys2Proof.Machine
end

