-- ==== Sys2Proof/Machine/Ops.lean ====
section
/-! DEFINITION. The shared operations: the CRC functions, delivery on the ports, `raise InvalidValue`
in the place of taking an exception (60_exceptions.md R125, R128), reset, and the conditions under
which a host operation and a dispatcher operation have a meaning. -/

namespace Sys2Proof.Machine

/-! ### The CRC functions (40_crc.md R68, R69) -/

/-- One round of `crc_step`: shift left, and subtract the generator when the top bit was 1 (R68). -/
def crcRound (c : Half) : Half := if c.msb then (c <<< 1) ^^^ Config.crcPoly else c <<< 1

/-- `n` rounds. -/
def crcRounds : Nat → Half → Half
  | 0, c => c
  | n + 1, c => crcRounds n (crcRound c)

/-- `crc_step(c, b)`: the byte meets the top 8 bits, then one round for each of its bits (R68). -/
def crcStep (c : Half) (b : Byte) : Half := crcRounds 8 (c ^^^ (b.setWidth 16 <<< 8))

/-- The remainder after the bytes of `s`, from the remainder `c`, in offset order (R69). -/
def crcFrom (c : Half) (s : List Byte) : Half := s.foldl crcStep c

/-- `crc16(s)`: from the initial value, with no final XOR (R69). -/
def crc16 (s : List Byte) : Half := crcFrom Config.crcInit s

/-- `checksum(s)`, the two bytes `be16(crc16(s))` (R69). -/
def checksum (s : List Byte) : List Byte := be16 (crc16 s)

/-! ### Ports and operations -/

/-- The operation's deliveries replace the last operation's: a condition or a result is not
remembered after it has been delivered (10_state.md R17). -/
def State.deliver (s : State) (p : Ports) : State := { s with ports := p }

/-- An operation is in progress on the instance: a DEC.BUF with bytes left, or a DSP.APPLY with its
payload (70_reset_and_hazards.md R148). -/
def State.busy (s : State) : Bool := s.report.isSome || s.cursor < s.rx.length

/-- A host operation: refused while another is in progress (R148, log 14), else its effect. -/
def hostOp (s : State) (effect : Host.Outcome State Fault Refusal) : Host.Outcome State Fault Refusal :=
  if s.busy then .refused .overlappingOperation else effect

/-- An operation or report unit of the dispatcher: it exists only when HAS_DSP (10_state.md R13, log 13). -/
def whenDsp (s : State) (effect : Host.Outcome State Fault Refusal) : Host.Outcome State Fault Refusal :=
  if s.params.hasDsp then effect else .refused .noDispatcher

/-- `raise InvalidValue(v)` (60_exceptions.md R125): RES = InvalidValue with the operand, no packet
reaches TX, no register changes. -/
def raiseInvalidValue (v : Half) (s : State) : State := s.deliver { res := some (.invalidValue v) }

/-! ### Reset (70_reset_and_hazards.md R143) -/

/-- Reset applied to the instance from outside: `crc` and the valid bits cleared, any operation in
progress abandoned without delivering its result. The build's parameters stay, the host goes on with
`rest`, the free values drawn stay drawn, and the instance keeps its number (log 19). -/
def resetInstance (rest : List HostRequest) (s : State) : State :=
  { State.reset with params := s.params, pending := rest, draws := s.draws, device := s.device }

end Sys2Proof.Machine
end

