-- ==== Sys2Proof/Machine/Checksum.lean ====
section
/-! DEFINITION. The Checksum Engine: CRC.CLR, CRC.UPD, CRC.RD, CRC.SUM (40_crc.md). -/

namespace Sys2Proof.Machine

/-- The two result bytes of a remainder, high byte first (R72, R73). -/
def sumOf (c : Half) : Res := .sum (hi c) (lo c)

/-- CRC.CLR: `crc <- 0x0000` (R70). -/
def execCrcClr (s : State) : Host.Outcome State Fault Refusal :=
  hostOp s (.next (State.deliver { s with crc := Config.crcInit } {}))

/-- CRC.UPD `b`: `crc <- crc_step(crc, b)` (R71). -/
def execCrcUpd (b : Byte) (s : State) : Host.Outcome State Fault Refusal :=
  hostOp s (.next (State.deliver { s with crc := crcStep s.crc b } {}))

/-- CRC.RD: `RES <- be16(crc)`; `crc` is not changed (R72). -/
def execCrcRd (s : State) : Host.Outcome State Fault Refusal :=
  hostOp s (.next (s.deliver { res := some (sumOf s.crc) }))

/-- CRC.SUM `l`: `RES <- checksum(l)`, in a private CRC instance (R73). -/
def execCrcSum (l : List Byte) (s : State) : Host.Outcome State Fault Refusal :=
  hostOp s (.next (s.deliver { res := some (sumOf (crc16 l)) }))

end Sys2Proof.Machine
end

