-- ==== Sys2Proof/Machine/Encoder.lean ====
section
/-! DEFINITION. The Command Encoder: ENC.CMD, ENC.PWR, ENC.BRT, ENC.CCT, ENC.QRY (41_encoder.md). -/

namespace Sys2Proof.Machine

/-- The TX packet space before an encode writes it. Every encode writes all 12 offsets
(20_memory.md R32), so its bytes are never seen (log 15). -/
def blankPacket : List Byte := List.replicate Config.packetLength 0x00#8

/-- The checksum appended at offsets 10 and 11, over offsets 0 to 9 as they stand (R79, R84). -/
def appendChecksum (tx : List Byte) : List Byte := memWrite tx 10 (checksum (memRead tx 0 10))

/-- The packet of ENC.CMD: the header template, the subcommand over offset 7, the value over offset
9, then the checksum (R79, 90_conflicts.md C1). -/
def commandPacket (sub value : Byte) : List Byte :=
  appendChecksum (memWrite (memWrite (memWrite blankPacket 0 Config.cmdTemplate) 7 [sub]) 9 [value])

/-- The packet of ENC.QRY (R84). -/
def queryPacket : List Byte := appendChecksum (memWrite blankPacket 0 Config.qryHeader)

/-- `TX <- the 12 bytes; RES <- ok`. -/
def sendPacket (p : List Byte) (s : State) : State := s.deliver { res := some .ok, tx := some p }

/-- The generic encode: the range test on the full operand (R79, R86), then the packet. -/
def encodeCommand (sub : Byte) (v : Half) (s : State) : State :=
  if fitsByte v then sendPacket (commandPacket sub (byteOf v)) s else raiseInvalidValue v s

/-- A wrapper encode: under STRICT_DOMAIN the declared domain is tested first (R81 to R83, R87). -/
def encodeWrapper (sub : Byte) (low high : Int) (v : Half) (s : State) : State :=
  if s.params.strictDomain && !inDomain low high v then raiseInvalidValue v s else encodeCommand sub v s

/-- ENC.CMD `sub`, `value` (R79). -/
def execEncCmd (sub : Byte) (v : Half) (s : State) : Host.Outcome State Fault Refusal :=
  hostOp s (.next (encodeCommand sub v s))

/-- ENC.PWR `value`, domain 0 to 1 (R81). -/
def execEncPwr (v : Half) (s : State) : Host.Outcome State Fault Refusal :=
  hostOp s (.next (encodeWrapper Config.subPower 0 1 v s))

/-- ENC.BRT `value`, domain 0 to 100 (R82). -/
def execEncBrt (v : Half) (s : State) : Host.Outcome State Fault Refusal :=
  hostOp s (.next (encodeWrapper Config.subBrightness 0 100 v s))

/-- ENC.CCT `value`, domain 32 to 56 (R83). -/
def execEncCct (v : Half) (s : State) : Host.Outcome State Fault Refusal :=
  hostOp s (.next (encodeWrapper Config.subTempCode 32 56 v s))

/-- ENC.QRY (R84). -/
def execEncQry (s : State) : Host.Outcome State Fault Refusal :=
  hostOp s (.next (sendPacket queryPacket s))

end Sys2Proof.Machine
end

