-- ==== Sys2Proof/Machine/Dispatcher.lean ====
section
/-! DEFINITION. The State Dispatcher and the state getters: DSP.APPLY, ST.RD, the report units, the
view `mired` (43_dispatch.md, 10_state.md R19 to R21). -/

namespace Sys2Proof.Machine

/-! ### The effects on Device State -/

/-- `st.on <- (v = 1); st.on_v <- 1` (R109). -/
def DeviceState.writeOn (st : DeviceState) (v : Byte) : DeviceState :=
  { st with on := s8 v = 1, onV := true }

/-- `st.brightness <- v; st.brightness_v <- 1`, unchecked (R110). -/
def DeviceState.writeBrightness (st : DeviceState) (v : Byte) : DeviceState :=
  { st with brightness := v, brightnessV := true }

/-- `st.temp_code <- v; st.temp_code_v <- 1`, unchecked (R111). -/
def DeviceState.writeTempCode (st : DeviceState) (v : Byte) : DeviceState :=
  { st with tempCode := v, tempCodeV := true }

/-- The snapshot overwrites all three; its unknown byte is not used (R112). -/
def DeviceState.writeSnapshot (st : DeviceState) (power brightness code : Byte) : DeviceState :=
  ((st.writeOn power).writeBrightness brightness).writeTempCode code

/-! ### The operation -/

/-- Category 02 of DSP.APPLY, by its key (R107, R113). -/
def applyUpdate (key v : Byte) (st : DeviceState) : CondSet × DeviceState :=
  if key = Config.subPower then (noConditions, st.writeOn v)
  else if key = Config.subBrightness then (noConditions, st.writeBrightness v)
  else if key = Config.subTempCode then (noConditions, st.writeTempCode v)
  else (only .unrecognizedKey, st)

/-- DSP.APPLY past its gate: category, length, key (R107, R114, R116). -/
def applyReport (p : List Byte) (st : DeviceState) : CondSet × DeviceState :=
  if p.length = 0 then (only .unrecognizedCategory, st)
  else if byteAt p 0 = Config.catUpdate then
    if p.length < 3 then (only .shortReport, st)
    else applyUpdate (byteAt p keyOffset) (byteAt p valueOffset) st
  else if byteAt p 0 = Config.catSnapshot then
    if p.length < 5 then (only .shortReport, st)
    else (noConditions, st.writeSnapshot (byteAt p 1) (byteAt p 3) (byteAt p 4))
  else (only .unrecognizedCategory, st)

/-- DSP.APPLY `p`, `dc` (R107): the conditions it returns and the Device State it leaves. A gated
report is skipped: no state change, no condition (R108). -/
def dspApply (gate : CondSet) (p : List Byte) (dc : CondSet) (st : DeviceState) : CondSet × DeviceState :=
  if gated gate dc then (noConditions, st) else applyReport p st

/-- A dispatcher answer delivered on RES, with the Device State it leaves. -/
def answer (r : CondSet × DeviceState) (s : State) : State :=
  State.deliver { s with st := r.2 } { res := some (.conds r.1) }

/-- DSP.APPLY as a host operation (R107). The payload space holds at most 251 bytes also when the
host writes it (20_memory.md R30); a longer payload is refused (log 22). -/
def execDspApply (p : List Byte) (dc : CondSet) (s : State) : Host.Outcome State Fault Refusal :=
  hostOp s (whenDsp s (
    if fitsPayload p.length then .next (answer (dspApply s.params.gateMask p dc s.st) s)
    else .refused .payloadTooLong))

/-- What becomes of a payload that holds no report unit: the condition of R108 or R116 and no change
(log 11). -/
def applyNoUnit (p : List Byte) (s : State) : Host.Outcome State Fault Refusal :=
  whenDsp s (.next (answer (applyReport p s.st) s))

/-! ### The getters -/

/-- ST.RD `sel`: `RES <- (valid, data)` (R115). While the valid bit is 0 the data is any value
(10_state.md R21): a free value, and the next draw is a fresh one (log 6). -/
def execStRd (sel : Selector) (s : State) : Host.Outcome State Fault Refusal :=
  hostOp s (whenDsp s (.next (
    if validBit s.st sel then s.deliver { res := some (.read true (valueRegister s.st sel)) }
    else State.deliver { s with draws := s.draws + 1 } { res := some (.read false (freeData s.device s.draws sel)) })))

/-! ### The report units -/

/-- RPT.UPD.PWR (R109). -/
def execRptUpdPwr (v : Byte) (s : State) : Host.Outcome State Fault Refusal :=
  whenDsp s (.next (answer (noConditions, s.st.writeOn v) s))

/-- RPT.UPD.BRT (R110). -/
def execRptUpdBrt (v : Byte) (s : State) : Host.Outcome State Fault Refusal :=
  whenDsp s (.next (answer (noConditions, s.st.writeBrightness v) s))

/-- RPT.UPD.CCT (R111). -/
def execRptUpdCct (v : Byte) (s : State) : Host.Outcome State Fault Refusal :=
  whenDsp s (.next (answer (noConditions, s.st.writeTempCode v) s))

/-- RPT.SNAP (R112): all three fields in one step, whatever the unknown byte is. -/
def execRptSnap (power _unknown brightness code : Byte) (s : State) : Host.Outcome State Fault Refusal :=
  whenDsp s (.next (answer (noConditions, s.st.writeSnapshot power brightness code) s))

/-- RPT.UPD.other: category 02 with any key; the three named keys are the rows before it (R113). -/
def execRptUpdOther (key v : Byte) (s : State) : Host.Outcome State Fault Refusal :=
  whenDsp s (.next (answer (applyUpdate key v s.st) s))

/-- RPT.other: UnrecognizedCategory, state unchanged (R114). -/
def execRptOther (_category : Byte) (s : State) : Host.Outcome State Fault Refusal :=
  whenDsp s (.next (answer (only .unrecognizedCategory, s.st) s))

/-! ### The view `mired` (10_state.md R20) -/

/-- `10000 / st.temp_code` as an exact rational number, where the code is valid and not 0. -/
def State.mired (s : State) : Option Rat :=
  if s.params.hasDsp && s.st.tempCodeV && s8 s.st.tempCode ≠ 0 then
    some (10000 / (s8 s.st.tempCode : Rat))
  else none

/-- Reading the view: a fault where it has no value (93_implementation_defined.md U4, log 18). -/
def State.readMired (s : State) : Except Fault Rat :=
  match s.mired with
  | some q => .ok q
  | none => .error .miredHasNoValue

end Sys2Proof.Machine
end

