-- ==== Sys2Proof/Machine/Decoder.lean ====
section
/-! DEFINITION. The Frame Decoder: the frame step DEC.FRAME and DEC.BUF (42_decoder.md). -/

namespace Sys2Proof.Machine

/-! ### The frame step (R93) -/

/-- Steps 4 and 5 of the frame step on a frame whose checksum matched: strip the sub-header whatever
it is, and emit the payload (R98, R99). `sem` is `body[0 .. L-2)`. -/
def reportRecord (cond : CondSet) (start flen : Nat) (sem : List Byte) : Record :=
  { kind := .report, cond := noteIf (badPrefix sem) cond .unrecognizedPrefix, start := start,
    flen := flen, payload := sem.drop 2 }

/-- A whole frame of length byte `L` whose body is at `off` (R93 from its third test on): no room for
a checksum (R96), checksum (R97), report (R98, R99). -/
def wholeFrame (buf : List Byte) (cursor L : Nat) (cond : CondSet) : Record :=
  let body := memRead buf (cursor + 3) L
  let dropped : Record :=
    { kind := .dropped, cond := note cond .checksumMismatch, start := cursor, flen := 3 + L, payload := [] }
  if L < 2 then dropped
  else if checksum (memRead buf cursor (3 + L - 2)) ≠ memRead body (L - 2) 2 then dropped
  else reportRecord cond cursor (3 + L) (memRead body 0 (L - 2))

/-- DEC.FRAME `(buf, N, cursor)`, `N = len(buf)`: the record and the next cursor (R93). -/
def decFrame (buf : List Byte) (cursor : Nat) : Record × Nat :=
  let N := buf.length
  let rem := N - cursor
  if rem < 3 then
    ({ kind := .truncated, cond := only .truncatedFrame, start := cursor, flen := rem, payload := [] }, N)
  else
    let cond := noteIf (badMagic (memRead buf cursor 2)) noConditions .headerMismatch
    let L := u8 (byteAt buf (cursor + 2))
    if N < cursor + 3 + L then
      ({ kind := .truncated, cond := note cond .truncatedFrame, start := cursor, flen := rem, payload := [] }, N)
    else (wholeFrame buf cursor L cond, cursor + 3 + L)

/-! ### Emission and dispatch -/

/-- The record emitted, a REPORT record applied to Device State when HAS_DSP (R91, 10_state.md R26),
and the cursor moved on (R100). -/
def emit (r : Record) (next : Nat) (s : State) : State :=
  if s.params.hasDsp && r.kind = .report then
    let d := dspApply s.params.gateMask r.payload r.cond s.st
    { s with st := d.2, cursor := next,
             ports := { s.ports with records := s.ports.records ++ [{ record := r, dispatched := some d.1 }] } }
  else
    { s with cursor := next,
             ports := { s.ports with records := s.ports.records ++ [{ record := r, dispatched := none }] } }

/-- One pass of the loop of DEC.BUF at the cursor (R91). -/
def frameStep (s : State) : State := emit (decFrame s.rx s.cursor).1 (decFrame s.rx s.cursor).2 s

/-- The frame step on one unit that begins at the cursor, for the wire units: DEC.FRAME of the unit's
own bytes, with offsets counted from the cursor. -/
def unitStep (unit : List Byte) (s : State) : State :=
  let r := (decFrame unit 0).1
  emit { r with start := s.cursor + r.start } (s.cursor + (decFrame unit 0).2) s

/-! ### The operation (R91) -/

/-- The start of DEC.BUF: the buffer on RX, cursor 0, no record yet, nothing carried over (R101). -/
def startDecode (buf : List Byte) (s : State) : State :=
  State.deliver { s with rx := buf, cursor := 0 } {}

/-- `while cursor < N`, with fuel: every pass consumes at least one byte, so `N` passes are enough
(R92). -/
def decodeLoop : Nat → State → State
  | 0, s => s
  | n + 1, s => if s.cursor < s.rx.length then decodeLoop n (frameStep s) else s

/-- DEC.BUF `buf` (R91), one atomic step (00_scope.md R6). -/
def execDecBuf (buf : List Byte) (s : State) : Host.Outcome State Fault Refusal :=
  hostOp s (if accepts s.params buf.length then .next (decodeLoop buf.length (startDecode buf s))
            else .refused .bufferTooLong)

end Sys2Proof.Machine
end

