-- ==== Sys2Proof/Machine/WireUnits.lean ====
section
/-! DEFINITION. The wire units at the decode cursor: each is one frame step of DEC.BUF (42_decoder.md
R93). The packets the block itself sends have the form of a frame, and this is what becomes of one
that is fed back (30_encoding.md R49, log 9). -/

namespace Sys2Proof.Machine

/-- W.CMD: a command packet at the cursor (R47, R49). -/
def execWCmd (sub value : Byte) (c : Half) (s : State) : Host.Outcome State Fault Refusal :=
  .next (unitStep (commandUnit sub value c) s)

/-- W.CMD.PWR: the packet with subcommand 00 (R47, R49). -/
def execWCmdPwr (value : Byte) (c : Half) (s : State) : Host.Outcome State Fault Refusal :=
  .next (unitStep (commandUnit Config.subPower value c) s)

/-- W.CMD.BRT: the packet with subcommand 02 (R47, R49). -/
def execWCmdBrt (value : Byte) (c : Half) (s : State) : Host.Outcome State Fault Refusal :=
  .next (unitStep (commandUnit Config.subBrightness value c) s)

/-- W.CMD.CCT: the packet with subcommand 03 (R47, R49). -/
def execWCmdCct (value : Byte) (c : Half) (s : State) : Host.Outcome State Fault Refusal :=
  .next (unitStep (commandUnit Config.subTempCode value c) s)

/-- W.QRY: the QueryAll packet (R48, R49). -/
def execWQry (s : State) : Host.Outcome State Fault Refusal :=
  .next (unitStep queryUnit s)

/-- W.FRAME: any other unit, whole or cut off by the end of the buffer (R50, R93). -/
def execWFrame (unit : List Byte) (s : State) : Host.Outcome State Fault Refusal :=
  .next (unitStep unit s)

end Sys2Proof.Machine
end

