-- ==== Sys2Proof/Machine/Dispatch.lean ====
section
/-! DEFINITION. One arm per constructor of Instr. -/

namespace Sys2Proof.Machine

/-- The meaning of an instruction. -/
def exec (i : Instr) (s : State) : Host.Outcome State Fault Refusal :=
  match i with
  -- the Checksum Engine (40_crc.md)
  | .crcClr => Sys2Proof.Machine.execCrcClr s
  | .crcUpd b => Sys2Proof.Machine.execCrcUpd b s
  | .crcRd => Sys2Proof.Machine.execCrcRd s
  | .crcSum l => Sys2Proof.Machine.execCrcSum l s
  -- the Command Encoder (41_encoder.md)
  | .encCmd sub v => Sys2Proof.Machine.execEncCmd sub v s
  | .encPwr v => Sys2Proof.Machine.execEncPwr v s
  | .encBrt v => Sys2Proof.Machine.execEncBrt v s
  | .encCct v => Sys2Proof.Machine.execEncCct v s
  | .encQry => Sys2Proof.Machine.execEncQry s
  -- the Frame Decoder (42_decoder.md)
  | .decBuf buf => Sys2Proof.Machine.execDecBuf buf s
  -- the State Dispatcher (43_dispatch.md)
  | .dspApply p dc => Sys2Proof.Machine.execDspApply p dc s
  | .stRd sel => Sys2Proof.Machine.execStRd sel s
  -- the wire units at the cursor (30_encoding.md R46 to R51)
  | .wCmd sub v c => Sys2Proof.Machine.execWCmd sub v c s
  | .wCmdPwr v c => Sys2Proof.Machine.execWCmdPwr v c s
  | .wCmdBrt v c => Sys2Proof.Machine.execWCmdBrt v c s
  | .wCmdCct v c => Sys2Proof.Machine.execWCmdCct v c s
  | .wQry => Sys2Proof.Machine.execWQry s
  | .wFrame u => Sys2Proof.Machine.execWFrame u s
  -- the report units (30_encoding.md R52 to R54)
  | .rptUpdPwr v => Sys2Proof.Machine.execRptUpdPwr v s
  | .rptUpdBrt v => Sys2Proof.Machine.execRptUpdBrt v s
  | .rptUpdCct v => Sys2Proof.Machine.execRptUpdCct v s
  | .rptSnap p u b t => Sys2Proof.Machine.execRptSnap p u b t s
  | .rptUpdOther k v => Sys2Proof.Machine.execRptUpdOther k v s
  | .rptOther g => Sys2Proof.Machine.execRptOther g s

end Sys2Proof.Machine
end

