-- ==== Sys2Proof/Machine/Fetch.lean ====
section
/-! DEFINITION. What the next step acts on: a reset request, the payload of a DSP.APPLY in progress,
the unit at the cursor of a DEC.BUF in progress, or the next operation of the host. -/

namespace Sys2Proof.Machine

/-- What a step finds. -/
inductive Fetched where
  /-- The host has issued nothing. -/
  | idle
  /-- A reset, and the host's requests after it. -/
  | reset (rest : List HostRequest)
  /-- An instruction's bytes, the space they come from, and the state with them taken. -/
  | bytes (sp : Space) (bs : List Byte) (s : State)
  deriving DecidableEq, Repr

/-- The host's next operation, once none is in progress (20_memory.md R43, log 2). -/
def fetchOperation (s : State) : Fetched :=
  match s.pending with
  | .operation bs :: rest => .bytes .op bs { s with pending := rest }
  | .reset :: rest => .reset rest
  | [] => .idle

/-- An operation in progress goes on to its end: a payload is taken whole, a wire unit is read at the
cursor and the cursor is moved by its meaning (10_state.md R16). -/
def fetchInstruction (s : State) : Fetched :=
  match s.report with
  | some p => .bytes .report p { s with report := none }
  | none => if s.cursor < s.rx.length then .bytes .wire (s.rx.drop s.cursor) s else fetchOperation s

/-- A reset is applied from outside whatever the block is doing (70_reset_and_hazards.md R143). -/
def fetch (s : State) : Fetched :=
  match s.pending with
  | .reset :: rest => .reset rest
  | _ => fetchInstruction s

/-- What becomes of bytes that are no instruction. -/
def reject (e : DecodeError) (bs : List Byte) (s : State) : Host.Outcome State Fault Refusal :=
  match e with
  | .emptyTransaction => .refused .emptyTransaction
  | .reservedOperation code => .refused (.reservedOperation code)
  | .malformedOperands code => .refused (.malformedOperands code)
  | .reservedSelector sel => .refused (.reservedSelector sel)
  | .emptyUnit => .refused .noUnitAtCursor
  | .shortPayload => applyNoUnit bs s
  | .longPayload => .refused .payloadTooLong

/-- `s` with an instruction's bytes where `fetch` finds them next: an operation as the host's next
request with none in progress, a wire unit at the front of the RX bytes from the cursor on, a report
as the payload of the DSP.APPLY in progress. A reset waiting ahead of it is dropped. -/
def placeBytes (sp : Space) (bs : List Byte) (s : State) : State :=
  match sp with
  | .op => { s with report := none, cursor := s.rx.length, pending := .operation bs :: s.pending }
  | .wire => { s with report := none, rx := bs, cursor := 0, pending := s.pending.dropWhile (· = .reset) }
  | .report => { s with report := some bs, pending := s.pending.dropWhile (· = .reset) }

end Sys2Proof.Machine
end

