-- ==== Sys2Proof/Machine/Step.lean ====
section
/-! DEFINITION. One step: a reset, or the next instruction (log 2). With nothing issued the block
stands still (log 17). -/

namespace Sys2Proof.Machine

/-- One step of the instance. -/
def step (s : State) : Host.Outcome State Fault Refusal :=
  match fetch s with
  | .idle => .next s
  | .reset rest => .next (resetInstance rest s)
  | .bytes sp bs s' =>
    match decodeIn sp bs with
    | .ok i => exec i s'
    | .error e => reject e bs s'

/-- `s` with a word of the opcode table stored where the next step fetches (log 12). -/
def State.withFetchWord (s : State) (nbits w : Nat) : State :=
  placeBytes (tableUnit nbits w).1 (tableUnit nbits w).2 s

end Sys2Proof.Machine
end

