-- ==== Sys2Proof/Machine/System.lean ====
section
/-! DEFINITION. Several instances, one per light, that share nothing (10_state.md R28, 60_exceptions.md
R134, log 16). -/

namespace Sys2Proof.Machine

/-- `NDEV` instances, in a list (00_scope.md R8). -/
abbrev System := List State

/-- `NDEV >= 1` (R8), and no two instances have the same number (log 16). -/
abbrev System.wf (sys : System) : Prop := 1 ≤ sys.length ∧ (sys.map (·.device)).Nodup

/-- One step of instance `k`; an index without an instance leaves the system as it is. -/
def System.stepAt (sys : System) (k : Nat) : Host.Outcome System Fault Refusal :=
  match sys[k]? with
  | none => .next sys
  | some s =>
    match step s with
    | .next s' => .next (sys.set k s')
    | .fault f => .fault f
    | .refused r => .refused r

end Sys2Proof.Machine
end

