-- ==== Sys2Proof/Safety.lean ====
section
/-! DEFINITION. What claims call a good state, a permitted record, a good packet; runs of several
operations. -/

namespace Sys2Proof.Machine

/-- The kinds and condition sets a frame step can give a record (42_decoder.md R105). -/
def permittedTags : List (Kind × CondSet) :=
  [ (.report, noConditions),
    (.report, only .headerMismatch),
    (.report, only .unrecognizedPrefix),
    (.report, note (only .headerMismatch) .unrecognizedPrefix),
    (.dropped, only .checksumMismatch),
    (.dropped, note (only .headerMismatch) .checksumMismatch),
    (.truncated, only .truncatedFrame),
    (.truncated, note (only .headerMismatch) .truncatedFrame) ]

/-- A record a frame step can give: its tags are permitted and its payload is within 20_memory.md
R30's bound, empty for any kind but REPORT (42_decoder.md R90). -/
def Record.Permitted (r : Record) : Prop :=
  (r.kind, r.cond) ∈ permittedTags ∧ r.payload.length ≤ 251 ∧ (r.kind ≠ .report → r.payload = [])

/-- An element of REC: a permitted record, dispatched only if it is a REPORT and HAS_DSP (10_state.md
R26). -/
def Emitted.Permitted (p : Params) (e : Emitted) : Prop :=
  e.record.Permitted ∧ (e.dispatched.isSome = (p.hasDsp && e.record.kind = .report))

/-- A packet the block may hand to TX: 12 bytes that have the form of a frame with the right checksum
(30_encoding.md R49, 40_crc.md R75). -/
def GoodPacket (p : List Byte) : Prop :=
  p.length = 12 ∧ p.take 4 = [0x4C#8, 0x54#8, 0x09#8, 0x00#8] ∧ crc16 p = 0#16

/-- The invariant: the cursor never passes the buffer (10_state.md R16), the buffer is within NMAX
and a payload in progress within its space (20_memory.md R30), TX holds good packets and REC permitted
records. -/
def Inv (s : State) : Prop :=
  s.cursor ≤ s.rx.length
  ∧ accepts s.params s.rx.length = true
  ∧ (∀ p, s.report = some p → fitsPayload p.length = true)
  ∧ (∀ p, s.ports.tx = some p → GoodPacket p)
  ∧ ∀ e ∈ s.ports.records, e.Permitted s.params

/-- Several instructions one after another, stopping at the first that has no next state. -/
def runAll : List Instr → State → Host.Outcome State Fault Refusal
  | [], s => .next s
  | i :: is, s =>
    match exec i s with
    | .next s' => runAll is s'
    | .fault f => .fault f
    | .refused r => .refused r

/-! ### The layouts of 30_encoding.md, offset by offset, in the form statements compare with -/

/-- Offsets 0 to 9 of a command packet (R47). -/
def commandHeader (sub value : Byte) : List Byte :=
  [0x4C#8, 0x54#8, 0x09#8, 0x00#8, 0x20#8, 0x57#8, 0x00#8, sub, 0x01#8, value]

/-- A command packet whose last two bytes are the big-endian CRC of the ten before them (R47, R56). -/
def checkedCommand (sub value : Byte) : List Byte :=
  commandHeader sub value ++ [hi (crc16 (commandHeader sub value)), lo (crc16 (commandHeader sub value))]

/-- A unit with magic bytes `m0 m1`, the semantic bytes `sem` and the right checksum (R50). Its
length byte is right where `sem` has at most 253 bytes. -/
def checkedUnit (m0 m1 : Byte) (sem : List Byte) : List Byte :=
  let summed := m0 :: m1 :: BitVec.ofNat 8 (sem.length + 2) :: sem
  summed ++ [hi (crc16 summed), lo (crc16 summed)]

/-- The whole valid frame of a payload of at most 251 bytes (R50, R52). -/
def validFrame (payload : List Byte) : List Byte :=
  checkedUnit 0x4C#8 0x54#8 (0x00#8 :: 0x20#8 :: payload)

/-- The REPORT record of a valid frame that begins at `start`. -/
def cleanReport (start : Nat) (payload : List Byte) : Record :=
  { kind := .report, cond := 0#8, start := start, flen := payload.length + 7, payload := payload }

/-- The REPORT records of valid frames one after another from offset `start` on (42_decoder.md R103). -/
def cleanReports : Nat → List (List Byte) → List Record
  | _, [] => []
  | start, p :: ps => cleanReport start p :: cleanReports (start + (p.length + 7)) ps

/-- The Device State after the reports `ps` have been applied in order (10_state.md R26). -/
def applyAll (gate : CondSet) (ps : List (List Byte)) (st : DeviceState) : DeviceState :=
  ps.foldl (fun d p => (dspApply gate p 0#8 d).2) st

end Sys2Proof.Machine
end

