-- ==== Sys2Proof/Certificates/Slice0/Obligations.lean ====
section
/-! DEFINITION. The statements for the provers. Each cites the rule of spec/ it formalises; a clause
that rests on a choice of the model says so and names its log entry. -/

open Sys2Proof Sys2Proof.Machine

/-! ### The Checksum Engine -/

/-- 40_crc.md R70: the code, the effect and what it leaves alone, idempotence, and that after reset
it changes nothing. That a transaction is a list of bytes, the code first, is log 3; that the ports
deliver nothing after it is log 1. -/
def Obligations.CrcClrClearsTheRegister : Prop :=
  decodeIn .op [0x00#8] = .ok .crcClr
  ∧ (∀ s : State, s.busy = false → exec .crcClr s = .next { s with crc := 0x0000#16, ports := {} })
  ∧ (∀ s t : State, exec .crcClr s = .next t → exec .crcClr t = .next t)
  ∧ exec .crcClr State.reset = .next State.reset

/-- 40_crc.md R71: the code, the effect and what it leaves alone, the corner cases and the example.
That a transaction is a list of bytes, the code first, is log 3; that the ports deliver nothing after it
is log 1. -/
def Obligations.CrcUpdTakesOneByteStep : Prop :=
  (∀ b, decodeIn .op [0x01#8, b] = .ok (.crcUpd b))
  ∧ (∀ (b : Byte) (s : State), s.busy = false →
      exec (.crcUpd b) s = .next { s with crc := crcStep s.crc b, ports := {} })
  ∧ crcStep 0x0000#16 0x00#8 = 0x0000#16
  ∧ (∀ s, crc16 (0x00#8 :: s) = crc16 s)
  ∧ crcStep 0x0000#16 0x01#8 = 0x1021#16
  ∧ crcStep 0x0000#16 0x4C#8 = 0x8948#16
  ∧ crcStep 0x8948#16 0x54#8 = 0x52D0#16

/-- A bit vector as a polynomial over GF(2), its most significant bit the highest power (R68). -/
noncomputable def Sys2Proof.Claims.polyOf {n : Nat} (v : BitVec n) : Polynomial (ZMod 2) :=
  ∑ i ∈ Finset.range n, if v.getLsbD i then Polynomial.X ^ i else 0

/-- The generator `x^16 + x^12 + x^5 + 1` that the literal 0x1021 stands for (R68). -/
noncomputable def Sys2Proof.Claims.generator : Polynomial (ZMod 2) :=
  Polynomial.X ^ 16 + Polynomial.X ^ 12 + Polynomial.X ^ 5 + 1

/-- The equivalent statement of 40_crc.md R68: `crc_step(c, b)` is the remainder of
`c·x^8 + b·x^16` divided by the generator over GF(2). The spec marks the reading of the polynomial's
literal as general knowledge (G1). -/
def Obligations.CrcStepIsTheRemainderByTheGenerator : Prop :=
  ∀ (c : Half) (b : Byte),
    Sys2Proof.Claims.polyOf (crcStep c b)
      = (Sys2Proof.Claims.polyOf c * Polynomial.X ^ 8 + Sys2Proof.Claims.polyOf b * Polynomial.X ^ 16)
          %ₘ Sys2Proof.Claims.generator

/-- 40_crc.md R72: the code, the two bytes, that `crc` and every other register stay, and the corner
cases. That a transaction is a list of bytes, the code first, is log 3; that TX and REC deliver nothing
after it is log 1. -/
def Obligations.CrcRdReturnsTheRegisterHighByteFirst : Prop :=
  decodeIn .op [0x02#8] = .ok .crcRd
  ∧ (∀ s : State, s.busy = false →
      exec .crcRd s
        = .next { s with ports := { res := some (.sum (s.crc.extractLsb' 8 8) (s.crc.extractLsb' 0 8)) } })
  ∧ (∀ s t u : State, exec .crcClr s = .next t → exec .crcRd t = .next u →
      u.ports.res = some (.sum 0x00#8 0x00#8))
  ∧ (∀ u, exec .crcRd State.reset = .next u → u.ports.res = some (.sum 0x00#8 0x00#8))
  ∧ (∀ s u : State, s.crc = 0x385B#16 → exec .crcRd s = .next u →
      u.ports.res = some (.sum 0x38#8 0x5B#8))

/-- 40_crc.md R73: the code, the effect and what it leaves alone, the corner cases and the example.
The operand's byte layout is log 3; that TX and REC deliver nothing after it is log 1. -/
def Obligations.CrcSumIsTheChecksumOfItsOperand : Prop :=
  (∀ l : List Byte, decodeIn .op (0x03#8 :: BitVec.ofNat 8 l.length :: l) = .ok (.crcSum l))
  ∧ (∀ (l : List Byte) (s : State), s.busy = false →
      exec (.crcSum l) s = .next { s with ports := { res := some (.sum (hi (crc16 l)) (lo (crc16 l))) } })
  ∧ (∀ n, crc16 (List.replicate n 0x00#8) = 0x0000#16)
  ∧ crc16 [0x4C#8, 0x54#8, 0x09#8, 0x00#8, 0x00#8, 0x53#8, 0x00#8, 0x00#8, 0x01#8, 0x00#8] = 0x9474#16

/-- 40_crc.md R74, whole: with CRC.CLR first from any idle state, without it directly after reset,
and resumed. -/
def Obligations.StreamingEqualsWholeSequence : Prop :=
  (∀ (l : List Byte) (s : State), s.busy = false →
      ∃ t, runAll (.crcClr :: (l.map .crcUpd ++ [.crcRd])) s = .next t
        ∧ t.ports.res = some (.sum (hi (crc16 l)) (lo (crc16 l))))
  ∧ (∀ l : List Byte,
      ∃ t, runAll (l.map .crcUpd ++ [.crcRd]) State.reset = .next t
        ∧ t.ports.res = some (.sum (hi (crc16 l)) (lo (crc16 l))))
  ∧ (∀ (l m : List Byte) (s : State), s.busy = false →
      ∃ t, runAll (.crcClr :: (l.map .crcUpd ++ m.map .crcUpd)) s = .next t ∧ t.crc = crc16 (l ++ m))

/-- 40_crc.md R75: the residue law, and that a whole frame is valid exactly when the CRC over all its
bytes is zero, for `L >= 2`. -/
def Obligations.ResidueOfACheckedSequenceIsZero : Prop :=
  (∀ s : List Byte, crc16 (s ++ checksum s) = 0x0000#16)
  ∧ (∀ (u : List Byte) (L : Nat), u.length = 3 + L → 2 ≤ L → L = (u.getD 2 0#8).toNat →
      ((decFrame u 0).1.kind = .report ↔ crc16 u = 0x0000#16))

/-- 40_crc.md R76, whole: the two orders of the example differ, and order sensitivity is no law. -/
def Obligations.ChecksumOrderSensitivityIsNoLaw : Prop :=
  crc16 [0x01#8, 0x02#8] = 0x1373#16
  ∧ crc16 [0x02#8, 0x01#8] = 0x7643#16
  ∧ checksum ([0x00#8] ++ [0x00#8, 0x00#8]) = checksum ([0x00#8, 0x00#8] ++ [0x00#8])
  ∧ (∀ b1 b2 : List Byte, b1 = b2 → checksum (b1 ++ b2) = checksum (b2 ++ b1))

/-- 40_crc.md R77's law: changing any one byte of a sequence changes `crc16`. -/
def Obligations.OneChangedByteChangesTheCrc : Prop :=
  ∀ (s t : List Byte) (b b' : Byte), b ≠ b' → crc16 (s ++ b :: t) ≠ crc16 (s ++ b' :: t)

/-- 40_crc.md R78's linearity: `crc16(s xor t) = crc16(s) xor crc16(t)` for equal lengths. -/
def Obligations.CrcIsLinearForEqualLengths : Prop :=
  ∀ s t : List Byte, s.length = t.length →
    crc16 (List.zipWith (· ^^^ ·) s t) = crc16 s ^^^ crc16 t

/-- 10_state.md R15, 70_reset_and_hazards.md R150: only CRC.CLR and CRC.UPD write `crc`, and no other
operation or unit but CRC.RD reads it. -/
def Obligations.CrcRegisterIsTheHostsAlone : Prop :=
  (∀ (i : Instr) (s t : State), exec i s = .next t → i ≠ .crcClr → (∀ b, i ≠ .crcUpd b) → t.crc = s.crc)
  ∧ (∀ (i : Instr) (s t : State) (c : Half), exec i s = .next t →
      i ≠ .crcClr → (∀ b, i ≠ .crcUpd b) → i ≠ .crcRd →
      exec i { s with crc := c } = .next { t with crc := c })

/-! ### The Command Encoder -/

/-- 41_encoder.md R79, R86: the packet of ENC.CMD offset by offset, the range test on the full
operand, InvalidValue (R125) and the frame: nothing but the ports changes. The operand's byte layout
is log 3; that REC is empty after it, and TX too after InvalidValue, is log 1. -/
def Obligations.EncCmdWritesTheCommandPacket : Prop :=
  (∀ sub h l, decodeIn .op [0x10#8, sub, h, l] = .ok (.encCmd sub (h ++ l)))
  ∧ (∀ (sub : Byte) (v : Half) (s : State), s.busy = false → -128 ≤ v.toInt → v.toInt ≤ 127 →
      ∃ value : Byte, value.toInt = v.toInt
        ∧ exec (.encCmd sub v) s
            = .next { s with ports := { res := some .ok, tx := some (checkedCommand sub value) } })
  ∧ (∀ (sub : Byte) (v : Half) (s : State), s.busy = false → (v.toInt < -128 ∨ 127 < v.toInt) →
      exec (.encCmd sub v) s = .next { s with ports := { res := some (.invalidValue v) } })

/-- What R81, R82 and R83 say alike of a wrapper with subcommand `sub` and domain `low` to `high`.
That REC is empty after it, and TX too after InvalidValue, is log 1. -/
def Sys2Proof.Claims.WrapperRule (op : Half → Instr) (code sub : Byte) (low high : Int) : Prop :=
  (∀ h l, decodeIn .op [code, h, l] = .ok (op (h ++ l)))
  ∧ (∀ (v : Half) (s : State), s.busy = false → low ≤ v.toInt → v.toInt ≤ high →
      ∃ value : Byte, value.toInt = v.toInt
        ∧ exec (op v) s
            = .next { s with ports := { res := some .ok, tx := some (checkedCommand sub value) } })
  ∧ (∀ (v : Half) (s : State), s.busy = false → s.params.strictDomain = true →
      (v.toInt < low ∨ high < v.toInt) →
      exec (op v) s = .next { s with ports := { res := some (.invalidValue v) } })
  ∧ (∀ (v : Half) (s : State), s.params.strictDomain = false → exec (op v) s = exec (.encCmd sub v) s)

/-- 41_encoder.md R81, R82, R83, R87: the three wrappers, under STRICT_DOMAIN and without it. The
operand's byte layout is log 3; that REC is empty after it, and TX too after InvalidValue, is log 1. -/
def Obligations.WrapperEncodesTestTheirDomain : Prop :=
  Sys2Proof.Claims.WrapperRule .encPwr 0x11#8 0x00#8 0 1
  ∧ Sys2Proof.Claims.WrapperRule .encBrt 0x12#8 0x02#8 0 100
  ∧ Sys2Proof.Claims.WrapperRule .encCct 0x13#8 0x03#8 32 56

/-- 41_encoder.md R84, 30_encoding.md R48: ENC.QRY emits one constant packet. That a transaction is
a list of bytes, the code first, is log 3; that REC is empty after it is log 1. -/
def Obligations.EncQryEmitsTheConstantPacket : Prop :=
  decodeIn .op [0x14#8] = .ok .encQry
  ∧ crc16 [0x4C#8, 0x54#8, 0x09#8, 0x00#8, 0x00#8, 0x53#8, 0x00#8, 0x00#8, 0x01#8, 0x00#8] = 0x9474#16
  ∧ (∀ s : State, s.busy = false →
      exec .encQry s = .next { s with ports := { res := some .ok, tx := some (
        [0x4C#8, 0x54#8, 0x09#8, 0x00#8, 0x00#8, 0x53#8, 0x00#8, 0x00#8, 0x01#8, 0x00#8] ++ [0x94#8, 0x74#8]) } })

/-- 41_encoder.md R85: the fields of the packet on TX read back at their fixed offsets. -/
def Obligations.EncodedPacketFieldsReadBack : Prop :=
  ∀ (sub : Byte) (v : Half) (s t : State) (p : List Byte), -128 ≤ v.toInt → v.toInt ≤ 127 →
    exec (.encCmd sub v) s = .next t → t.ports.tx = some p →
      p.length = 12
      ∧ p[7]? = some sub
      ∧ (∃ value, p[9]? = some value ∧ value.toInt = v.toInt)
      ∧ p.drop 10 = checksum (p.take 10)
      ∧ p.take 7 = [0x4C#8, 0x54#8, 0x09#8, 0x00#8, 0x20#8, 0x57#8, 0x00#8]
      ∧ p[8]? = some 0x01#8

/-- The encode operations. -/
def Sys2Proof.Claims.isEncode : Instr → Bool
  | .encCmd _ _ | .encPwr _ | .encBrt _ | .encCct _ | .encQry => true
  | _ => false

/-- 41_encoder.md R80: an encode writes no register of the block, and its result depends on nothing
but its operands and the build. That all the ports then show is its own delivery is log 1. -/
def Obligations.EncodesArePure : Prop :=
  (∀ (i : Instr) (s t : State), Sys2Proof.Claims.isEncode i = true → exec i s = .next t →
      t = { s with ports := t.ports })
  ∧ (∀ (i : Instr) (s s' : State), Sys2Proof.Claims.isEncode i = true →
      s.busy = false → s'.busy = false → s.params = s'.params →
      ∃ t t', exec i s = .next t ∧ exec i s' = .next t' ∧ t.ports = t'.ports)

/-! ### The Frame Decoder -/

/-- The conditions the magic test leaves (42_decoder.md R94). -/
def Sys2Proof.Claims.magicCond (u : List Byte) : CondSet :=
  if u.take 2 = [0x4C#8, 0x54#8] then 0#8 else only .headerMismatch

/-- The state after a frame step that moves the cursor by `n` and emits one record that is not
dispatched: nothing else changes. -/
def Sys2Proof.Claims.emittedOnly (s : State) (n : Nat) (r : Record) : State :=
  { s with cursor := s.cursor + n,
           ports := { s.ports with records := s.ports.records ++ [{ record := r, dispatched := none }] } }

/-- 42_decoder.md R95: a unit the buffer cuts off is TRUNCATED with everything left, and changes no
other state. Fewer than 3 bytes: TruncatedFrame alone. The answer's place beside the record is log 21. -/
def Obligations.CutOffUnitsAreTruncated : Prop :=
  (∀ (u : List Byte) (s : State), u ≠ [] → u.length < 3 →
      exec (.wFrame u) s = .next (Sys2Proof.Claims.emittedOnly s u.length
        { kind := .truncated, cond := only .truncatedFrame, start := s.cursor, flen := u.length, payload := [] }))
  ∧ (∀ (u : List Byte) (s : State), 3 ≤ u.length → u.length < 3 + (u.getD 2 0#8).toNat →
      exec (.wFrame u) s = .next (Sys2Proof.Claims.emittedOnly s u.length
        { kind := .truncated, cond := Sys2Proof.Claims.magicCond u ||| only .truncatedFrame,
          start := s.cursor, flen := u.length, payload := [] }))

/-- 42_decoder.md R96, R97: a whole unit with no room for a checksum, or with another checksum than
its own bytes have, is DROPPED, changes no other state, and is passed over. The answer's place beside
the record is log 21. -/
def Obligations.UnitsWithoutAMatchingChecksumAreDropped : Prop :=
  (∀ (u : List Byte) (s : State), 3 ≤ u.length → u.length = 3 + (u.getD 2 0#8).toNat → u.length < 5 →
      exec (.wFrame u) s = .next (Sys2Proof.Claims.emittedOnly s u.length
        { kind := .dropped, cond := Sys2Proof.Claims.magicCond u ||| only .checksumMismatch,
          start := s.cursor, flen := u.length, payload := [] }))
  ∧ (∀ (u : List Byte) (s : State), 5 ≤ u.length → u.length = 3 + (u.getD 2 0#8).toNat →
      u.drop (u.length - 2) ≠ checksum (u.take (u.length - 2)) →
      exec (.wFrame u) s = .next (Sys2Proof.Claims.emittedOnly s u.length
        { kind := .dropped, cond := Sys2Proof.Claims.magicCond u ||| only .checksumMismatch,
          start := s.cursor, flen := u.length, payload := [] }))

/-- The conditions of a whole unit whose checksum matches: magic test and prefix test (R94, R98). -/
def Sys2Proof.Claims.reportCond (m0 m1 : Byte) (sem : List Byte) : CondSet :=
  (if m0 = 0x4C#8 ∧ m1 = 0x54#8 then 0#8 else only .headerMismatch)
    ||| (if sem.take 2 = [0x00#8, 0x20#8] then 0#8 else only .unrecognizedPrefix)

/-- 42_decoder.md R94, R97 to R100: a whole unit whose checksum matches gives one REPORT record, right
magic and sub-header or not, with the payload two bytes past the sub-header's place; it is applied to
Device State when HAS_DSP (R91), and nothing else changes. The answer's place beside the record is
log 21. -/
def Obligations.CheckedUnitsAreReportedAndApplied : Prop :=
  ∀ (m0 m1 : Byte) (sem : List Byte) (s : State), sem.length ≤ 253 →
    let r : Record := { kind := .report, cond := Sys2Proof.Claims.reportCond m0 m1 sem, start := s.cursor,
                        flen := sem.length + 5, payload := sem.drop 2 }
    let d := dspApply s.params.gateMask r.payload r.cond s.st
    exec (.wFrame (checkedUnit m0 m1 sem)) s
      = .next { s with
          st := if s.params.hasDsp then d.2 else s.st,
          cursor := s.cursor + (sem.length + 5),
          ports := { s.ports with records := s.ports.records ++
            [{ record := r, dispatched := if s.params.hasDsp then some d.1 else none }] } }

/-- A CMD12 unit at the cursor with subcommand `sub`: what 30_encoding.md R49 says of it with its
right checksum, and what 42_decoder.md R97 says with any other. -/
def Sys2Proof.Claims.CommandUnitRule (i : Byte → Half → Instr) (sub : Byte) : Prop :=
  (∀ (v : Byte) (s : State),
      exec (i v (crc16 (commandHeader sub v))) s
        = .next { s with
            cursor := s.cursor + 12
            ports := { s.ports with records := s.ports.records ++
              [{ record := { kind := .report, cond := 0#8, start := s.cursor, flen := 12,
                             payload := [0x57#8, 0x00#8, sub, 0x01#8, v] },
                 dispatched := if s.params.hasDsp then some (only .unrecognizedCategory) else none }] } })
  ∧ (∀ (v : Byte) (c : Half) (s : State), c ≠ crc16 (commandHeader sub v) →
      exec (i v c) s = .next (Sys2Proof.Claims.emittedOnly s 12
        { kind := .dropped, cond := only .checksumMismatch, start := s.cursor, flen := 12, payload := [] }))

/-- 30_encoding.md R49 for the command packets as units at the cursor (log 9): reported, recognised by
no category, state unchanged; dropped with a wrong checksum. The answer's place beside the record is
log 21. -/
def Obligations.CommandUnitsAreReportedAndChangeNothing : Prop :=
  (∀ sub, Sys2Proof.Claims.CommandUnitRule (fun v c => .wCmd sub v c) sub)
  ∧ Sys2Proof.Claims.CommandUnitRule .wCmdPwr 0x00#8
  ∧ Sys2Proof.Claims.CommandUnitRule .wCmdBrt 0x02#8
  ∧ Sys2Proof.Claims.CommandUnitRule .wCmdCct 0x03#8

/-- 30_encoding.md R49 for the QueryAll packet as a unit at the cursor (log 9): reported with
UnrecognizedPrefix; the dispatcher skips it where GATE_MASK has that condition, and otherwise answers
UnrecognizedCategory; no state changes. The answer's place beside the record is log 21. -/
def Obligations.QueryUnitIsReportedAndChangesNothing : Prop :=
  ∀ s : State,
    exec .wQry s
      = .next { s with
          cursor := s.cursor + 12
          ports := { s.ports with records := s.ports.records ++
            [{ record := { kind := .report, cond := only .unrecognizedPrefix, start := s.cursor, flen := 12,
                           payload := [0x53#8, 0x00#8, 0x00#8, 0x01#8, 0x00#8] },
               dispatched := if s.params.hasDsp then
                   some (if s.params.gateMask &&& only .unrecognizedPrefix = 0#8
                         then only .unrecognizedCategory else 0#8)
                 else none }] } }

/-- 30_encoding.md R49: DEC.BUF of a packet the encoder sent. -/
def Obligations.SentPacketsDecodeAsEchoes : Prop :=
  (∀ (sub : Byte) (v : Half) (s t u w : State) (p : List Byte), exec (.encCmd sub v) s = .next t →
      t.ports.tx = some p → exec (.decBuf p) u = .next w →
      ∃ value : Byte, value.toInt = v.toInt
        ∧ w.ports.records.map (·.record)
            = [{ kind := .report, cond := 0#8, start := 0, flen := 12,
                 payload := [0x57#8, 0x00#8, sub, 0x01#8, value] }]
        ∧ w.st = u.st)
  ∧ (∀ (s t u w : State) (p : List Byte), exec .encQry s = .next t →
      t.ports.tx = some p → exec (.decBuf p) u = .next w →
      w.ports.records.map (·.record)
        = [{ kind := .report, cond := only .unrecognizedPrefix, start := 0, flen := 12,
             payload := [0x53#8, 0x00#8, 0x00#8, 0x01#8, 0x00#8] }]
      ∧ w.st = u.st)

/-- 42_decoder.md R91, R92, R101, R102: every DEC.BUF completes with the cursor exactly at the end,
after at most ceil(N/3) frame steps, its records tile the buffer, and of the registers it writes only
the decoder's own and Device State; the empty buffer gives no record and no change of Device State.
That RES and TX are emptied is log 1; that the buffer and the cursor at its end stay in the state is
log 10. -/
def Obligations.DecBufConsumesTheWholeBuffer : Prop :=
  (∀ (buf : List Byte) (s : State), s.busy = false → accepts s.params buf.length = true →
      ∃ t, exec (.decBuf buf) s = .next t
        ∧ t = { s with rx := buf, cursor := buf.length, st := t.st, ports := { records := t.ports.records } }
        ∧ t.ports.records.length ≤ (buf.length + 2) / 3
        ∧ (t.ports.records.map (·.record.flen)).sum = buf.length
        ∧ (∀ k e, t.ports.records[k]? = some e →
            e.record.start = ((t.ports.records.take k).map (·.record.flen)).sum))
  ∧ (∀ s : State, s.busy = false →
      exec (.decBuf []) s = .next { s with rx := [], cursor := 0, ports := {} })

/-- 42_decoder.md R105, whole: the condition sets of a record are exactly the eight listed, each with
its kind. -/
def Obligations.RecordConditionSetsAreExactlyTheEight : Prop :=
  (∀ (buf : List Byte) (s t : State), exec (.decBuf buf) s = .next t →
      ∀ e ∈ t.ports.records, (e.record.kind, e.record.cond) ∈ permittedTags)
  ∧ (∀ k c, (k, c) ∈ permittedTags → ∃ (buf : List Byte) (t : State), exec (.decBuf buf) State.reset = .next t
      ∧ ∃ e ∈ t.ports.records, e.record.kind = k ∧ e.record.cond = c)

/-- 42_decoder.md R90: how kind and conditions of a record hang together, that TRUNCATED comes last
only, and that only REPORT records carry a payload, of at most 251 bytes. -/
def Obligations.RecordKindFollowsItsConditions : Prop :=
  ∀ (buf : List Byte) (s t : State), exec (.decBuf buf) s = .next t →
    (∀ e ∈ t.ports.records,
      (e.record.kind = .truncated ↔ hasCondition e.record.cond .truncatedFrame = true)
      ∧ (e.record.kind = .dropped ↔ hasCondition e.record.cond .checksumMismatch = true)
      ∧ (hasCondition e.record.cond .unrecognizedPrefix = true → e.record.kind = .report)
      ∧ (e.record.kind ≠ .report → e.record.payload = [])
      ∧ e.record.payload.length ≤ 251)
    ∧ (∀ k e, t.ports.records[k]? = some e → e.record.kind = .truncated → k + 1 = t.ports.records.length)

/-- 42_decoder.md R103, R91, 10_state.md R26: whole valid frames one after another decode to exactly
their reports, in order, each at its offset, and are applied to Device State in that order. -/
def Obligations.ConcatenatedFramesDecodeInOrder : Prop :=
  ∀ (ps : List (List Byte)) (s : State), (∀ p ∈ ps, p.length ≤ 251) → s.busy = false →
    accepts s.params (ps.flatMap validFrame).length = true →
    ∃ t, exec (.decBuf (ps.flatMap validFrame)) s = .next t
      ∧ t.ports.records.map (·.record) = cleanReports 0 ps
      ∧ t.st = if s.params.hasDsp then applyAll s.params.gateMask ps s.st else s.st

/-- 42_decoder.md R104 cases (a) and (b): one changed byte of one frame, its length byte apart, drops
that frame (with HeaderMismatch too where it is a magic byte), and every other frame is decoded and
applied as before. -/
def Obligations.ADamagedFrameIsDroppedAlone : Prop :=
  ∀ (ps qs : List (List Byte)) (p : List Byte) (k : Nat) (b : Byte) (s : State),
    (∀ q ∈ ps ++ p :: qs, q.length ≤ 251) → k < (validFrame p).length → k ≠ 2 → (validFrame p)[k]? ≠ some b →
    s.busy = false →
    let buf := ps.flatMap validFrame ++ (validFrame p).set k b ++ qs.flatMap validFrame
    let at1 := (ps.flatMap validFrame).length
    accepts s.params buf.length = true →
    ∃ t, exec (.decBuf buf) s = .next t
      ∧ t.ports.records.map (·.record)
          = cleanReports 0 ps
            ++ { kind := .dropped,
                 cond := (if k < 2 then only .headerMismatch else 0#8) ||| only .checksumMismatch,
                 start := at1, flen := p.length + 7, payload := [] }
              :: cleanReports (at1 + (p.length + 7)) qs
      ∧ t.st = if s.params.hasDsp then applyAll s.params.gateMask (ps ++ qs) s.st else s.st

/-- 42_decoder.md R101, 10_state.md R24: a frame split over two buffers leaves one TRUNCATED record
and no change of Device State, and nothing of a buffer or of anything but Device State reaches the next
DEC.BUF. That the ports then show this DEC.BUF's delivery alone is log 1; the answer's place beside a
record is log 21. -/
def Obligations.NothingIsCarriedOverBetweenBuffers : Prop :=
  (∀ (p : List Byte) (k : Nat) (s : State), p.length ≤ 251 → 0 < k → k < (validFrame p).length →
      s.busy = false → accepts s.params k = true →
      ∃ t, exec (.decBuf ((validFrame p).take k)) s = .next t
        ∧ t.ports.records
            = [{ record := { kind := .truncated, cond := only .truncatedFrame, start := 0, flen := k, payload := [] },
                 dispatched := none }]
        ∧ t.st = s.st)
  ∧ (∀ (buf : List Byte) (s s' t : State), s.busy = false → s'.busy = false → s.params = s'.params →
      s.st = s'.st → exec (.decBuf buf) s = .next t →
      ∃ t', exec (.decBuf buf) s' = .next t' ∧ t'.ports = t.ports ∧ t'.st = t.st)

/-- 42_decoder.md R91, 00_scope.md R6: DEC.BUF, one atomic step of the host, is its frame steps, each
the step of the unit at the cursor. The run of steps rests on the model's choices: no request waiting
(log 2), a DEC.BUF in progress held as buffer and cursor (log 10), steps past its end that stand still
(log 17). -/
def Obligations.DecBufIsItsFrameSteps : Prop :=
  ∀ (buf : List Byte) (s : State), s.busy = false → s.pending = [] → accepts s.params buf.length = true →
    Host.Core.run Sys2Proof.core buf.length { s with rx := buf, cursor := 0, ports := {} }
      = exec (.decBuf buf) s

/-! ### The State Dispatcher -/

/-- 43_dispatch.md R109, R110, R111: the three single-field updates, each with its encoding; each
writes its own field and valid bit and nothing else (R117), whatever the value. That TX and REC are
empty after it is log 1; RES as the place of its conditions is log 11. -/
def Obligations.UpdateUnitsWriteTheirOwnField : Prop :=
  (∀ v, decodeIn .report [0x02#8, 0x00#8, v] = .ok (.rptUpdPwr v))
  ∧ (∀ v, decodeIn .report [0x02#8, 0x02#8, v] = .ok (.rptUpdBrt v))
  ∧ (∀ v, decodeIn .report [0x02#8, 0x03#8, v] = .ok (.rptUpdCct v))
  ∧ (∀ (v : Byte) (s : State), s.params.hasDsp = true →
      exec (.rptUpdPwr v) s
        = .next { s with st := { s.st with on := v = 0x01#8, onV := true }, ports := { res := some (.conds 0#8) } })
  ∧ (∀ (v : Byte) (s : State), s.params.hasDsp = true →
      exec (.rptUpdBrt v) s
        = .next { s with st := { s.st with brightness := v, brightnessV := true },
                         ports := { res := some (.conds 0#8) } })
  ∧ (∀ (v : Byte) (s : State), s.params.hasDsp = true →
      ∃ t, exec (.rptUpdCct v) s = .next t
        ∧ t = { s with st := { s.st with tempCode := v, tempCodeV := true }, ports := { res := some (.conds 0#8) } }
        ∧ t.mired = if v = 0x00#8 then none else some (10000 / (v.toInt : Rat)))

/-- 43_dispatch.md R112: a snapshot overwrites all three fields in one step, whatever its unknown
byte. That TX and REC are empty after it is log 1; RES as the place of its conditions is log 11. -/
def Obligations.SnapshotWritesAllThreeFields : Prop :=
  (∀ p u b t, decodeIn .report [0x03#8, p, u, b, t] = .ok (.rptSnap p u b t))
  ∧ (∀ (p u b t : Byte) (s : State), s.params.hasDsp = true →
      exec (.rptSnap p u b t) s
        = .next { s with
            st := { on := p = 0x01#8, onV := true, brightness := b, brightnessV := true, tempCode := t, tempCodeV := true },
            ports := { res := some (.conds 0#8) } })
  ∧ (∀ (p u b t : Byte) (s n : State), s.params.hasDsp = true → exec (.rptSnap p u b t) s = .next n →
      n.mired = if t = 0x00#8 then none else some (10000 / (t.toInt : Rat)))

/-- 43_dispatch.md R113, R114: any other key and any other category, as units of a payload: the
condition, and no register changes. The payload has at most 251 bytes (20_memory.md R30; a longer one is
refused, WhereInstructionsAreRefused). That TX and REC are empty after it is log 1; RES as the place of
its conditions is log 11. -/
def Obligations.UnrecognisedReportsChangeNothing : Prop :=
  (∀ (k v : Byte) (s : State), s.params.hasDsp = true → k ≠ 0x00#8 → k ≠ 0x02#8 → k ≠ 0x03#8 →
      decodeIn .report [0x02#8, k, v] = .ok (.rptUpdOther k v)
      ∧ exec (.rptUpdOther k v) s = .next { s with ports := { res := some (.conds (only .unrecognizedKey)) } })
  ∧ (∀ (g : Byte) (rest : List Byte) (s : State), s.params.hasDsp = true → g ≠ 0x02#8 → g ≠ 0x03#8 →
      (g :: rest).length ≤ 251 →
      decodeIn .report (g :: rest) = .ok (.rptOther g)
      ∧ exec (.rptOther g) s = .next { s with ports := { res := some (.conds (only .unrecognizedCategory)) } })

/-- 43_dispatch.md R107: DSP.APPLY of a payload that holds a report unit, and is not gated, does what
the unit does. That a unit of a payload in progress is past the gate and delivers on RES is log 11. -/
def Obligations.DspApplyRunsTheReportUnit : Prop :=
  ∀ (p : List Byte) (dc : CondSet) (s : State) (i : Instr), s.busy = false → s.params.hasDsp = true →
    dc &&& s.params.gateMask = 0#8 → decodeIn .report p = .ok i →
    exec (.dspApply p dc) s = exec i s ∧ ∃ t, exec (.dspApply p dc) s = .next t

/-- 43_dispatch.md R108, R116: a gated report is skipped; an empty payload gives
UnrecognizedCategory, one shorter than its category's fields ShortReport; bytes beyond the fields are
ignored; no register changes on the first three. A payload has at most 251 bytes (20_memory.md R30; a
longer one is refused, WhereInstructionsAreRefused). That TX and REC are empty after it is log 1. -/
def Obligations.GatedShortAndLongPayloads : Prop :=
  (∀ (p : List Byte) (dc : CondSet) (s : State), s.busy = false → s.params.hasDsp = true →
      p.length ≤ 251 → dc &&& s.params.gateMask ≠ 0#8 →
      exec (.dspApply p dc) s = .next { s with ports := { res := some (.conds 0#8) } })
  ∧ (∀ (dc : CondSet) (s : State), s.busy = false → s.params.hasDsp = true → dc &&& s.params.gateMask = 0#8 →
      exec (.dspApply [] dc) s = .next { s with ports := { res := some (.conds (only .unrecognizedCategory)) } })
  ∧ (∀ (rest : List Byte) (dc : CondSet) (s : State), s.busy = false → s.params.hasDsp = true →
      dc &&& s.params.gateMask = 0#8 → rest.length + 1 < 3 →
      exec (.dspApply (0x02#8 :: rest) dc) s = .next { s with ports := { res := some (.conds (only .shortReport)) } })
  ∧ (∀ (rest : List Byte) (dc : CondSet) (s : State), s.busy = false → s.params.hasDsp = true →
      dc &&& s.params.gateMask = 0#8 → rest.length + 1 < 5 →
      exec (.dspApply (0x03#8 :: rest) dc) s = .next { s with ports := { res := some (.conds (only .shortReport)) } })
  ∧ (∀ (k v : Byte) (more : List Byte) (dc : CondSet) (s : State), more.length + 3 ≤ 251 →
      exec (.dspApply (0x02#8 :: k :: v :: more) dc) s = exec (.dspApply [0x02#8, k, v] dc) s)
  ∧ (∀ (p u b t : Byte) (more : List Byte) (dc : CondSet) (s : State), more.length + 5 ≤ 251 →
      exec (.dspApply (0x03#8 :: p :: u :: b :: t :: more) dc) s = exec (.dspApply [0x03#8, p, u, b, t] dc) s)

/-- 43_dispatch.md R115, 10_state.md R21: ST.RD returns the valid bit and the register it names, and
writes nothing; while the valid bit is 0 it completes with `valid = 0` and data the statement says
nothing of (a free value, log 6; the draw counter is the model's own). Other selectors are refused.
That the selector is one byte after the code is log 3; that TX and REC are empty after it is log 1. -/
def Obligations.StRdReturnsValidBitAndRegister : Prop :=
  decodeIn .op [0x31#8, 0x00#8] = .ok (.stRd .on)
  ∧ decodeIn .op [0x31#8, 0x01#8] = .ok (.stRd .brightness)
  ∧ decodeIn .op [0x31#8, 0x02#8] = .ok (.stRd .tempCode)
  ∧ (∀ sel : Byte, 3 ≤ sel.toNat → decodeIn .op [0x31#8, sel] = .error (.reservedSelector sel))
  ∧ (∀ (sel : Selector) (valid : Bool) (data : ReadData) (s : State), s.busy = false → s.params.hasDsp = true →
      (valid, data) = (match sel with
        | .on => (s.st.onV, ReadData.flag s.st.on)
        | .brightness => (s.st.brightnessV, .code s.st.brightness)
        | .tempCode => (s.st.tempCodeV, .code s.st.tempCode)) →
      ∃ t d, exec (.stRd sel) s = .next t
        ∧ t = { s with draws := t.draws, ports := { res := some (.read valid d) } }
        ∧ (valid = true → d = data))

/-- 10_state.md R20: `mired` is the exact quotient, where the code is valid and not zero, and has no
value otherwise; for the codes 32 to 56 it lies between 10000/56 and 10000/32. That reading the view
without a value faults is 93_implementation_defined.md U4 (log 18). -/
def Obligations.MiredIsTheExactQuotient : Prop :=
  (∀ (s : State) (q : Rat), s.params.hasDsp = true →
      (s.mired = some q ↔ s.st.tempCodeV = true ∧ s.st.tempCode.toInt ≠ 0 ∧ q * s.st.tempCode.toInt = 10000))
  ∧ (∀ (s : State) (q : Rat), s.mired = some q → 32 ≤ s.st.tempCode.toInt → s.st.tempCode.toInt ≤ 56 →
      10000 / 56 ≤ q ∧ q ≤ 10000 / 32)
  ∧ (∀ s : State, s.mired = none ↔ s.readMired = .error .miredHasNoValue)

/-- 43_dispatch.md R117, 20_memory.md R44: no instruction clears a valid bit; only DEC.BUF, the
units and DSP.APPLY change Device State; a unit at the cursor that gives no REPORT record changes none
of it. -/
def Obligations.DeviceStateIsOwnedByReports : Prop :=
  (∀ (i : Instr) (s t : State), exec i s = .next t →
      (s.st.onV = true → t.st.onV = true)
      ∧ (s.st.brightnessV = true → t.st.brightnessV = true)
      ∧ (s.st.tempCodeV = true → t.st.tempCodeV = true))
  ∧ (∀ (i : Instr) (s t : State), exec i s = .next t → i.space = .op →
      (∀ b, i ≠ .decBuf b) → (∀ p dc, i ≠ .dspApply p dc) → t.st = s.st)
  ∧ (∀ (i : Instr) (s t : State), exec i s = .next t → i.space = .wire →
      (∀ e, t.ports.records.getLast? = some e → e.record.kind ≠ .report) → t.st = s.st)

/-! ### The whole machine -/

/-- 60_exceptions.md R123, R124: the codes, one bit for each, and that noting a condition adds it and
takes nothing away. -/
def Obligations.NotingAConditionAddsItsBit : Prop :=
  [Condition.invalidValue, .headerMismatch, .truncatedFrame, .checksumMismatch, .unrecognizedPrefix,
    .unrecognizedKey, .unrecognizedCategory, .shortReport].map Condition.code = [1, 2, 3, 4, 5, 6, 7, 8]
  ∧ (∀ (cs : CondSet) (c : Condition) (k : Nat), k < 8 →
      (note cs c).getLsbD k = (cs.getLsbD k || decide (k = c.code - 1)))

/-- 10_state.md R27, 70_reset_and_hazards.md R143: what reset leaves, at start and whenever the host
applies it, whatever is in progress. That the port values held are emptied, and that the parameters,
the host's further requests and the instance's number stay, is log 19. -/
def Obligations.ResetClearsTheInstance : Prop :=
  (State.reset.crc = 0x0000#16 ∧ State.reset.busy = false ∧ State.reset.st.onV = false
    ∧ State.reset.st.brightnessV = false ∧ State.reset.st.tempCodeV = false)
  ∧ (∀ (s : State) (rest : List HostRequest), s.pending = .reset :: rest →
      ∃ t, step s = .next t ∧ t.crc = 0x0000#16 ∧ t.busy = false ∧ t.st.onV = false
        ∧ t.st.brightnessV = false ∧ t.st.tempCodeV = false ∧ t.ports = {}
        ∧ t.params = s.params ∧ t.pending = rest ∧ t.device = s.device)

/-- The invariant holds after reset (10_state.md R27). -/
def Obligations.ResetStateMeetsTheInvariant : Prop := Inv State.reset

/-- Every step keeps the invariant: the cursor within the buffer (10_state.md R16), the buffer within
NMAX and a payload in progress within 251 bytes (20_memory.md R30), a packet on TX always of 12 bytes with residue zero (40_crc.md R75), every
record on REC of a permitted kind and condition set with a payload of at most 251 bytes (42_decoder.md
R90, R105), dispatched exactly when it is a REPORT and HAS_DSP (10_state.md R26). Where the state holds these is the
model's choice (logs 1, 10, 11, 21). -/
def Obligations.StepKeepsTheInvariant : Prop :=
  ∀ s t : State, Inv s → step s = .next t → Inv t

/-- 10_state.md R18: the parameters are no registers: no step changes them. -/
def Obligations.ParametersNeverChange : Prop :=
  ∀ s t : State, step s = .next t → t.params = s.params

/-- 20_memory.md R31, R41: only DEC.BUF puts a buffer on RX, and it is refused while one is in
progress, so the buffer of a DEC.BUF in progress never changes under it. How the state holds the buffer is
log 10. -/
def Obligations.RxBufferIsConstantDuringDecode : Prop :=
  (∀ (i : Instr) (s t : State), exec i s = .next t → (∀ b, i ≠ .decBuf b) → t.rx = s.rx)
  ∧ (∀ s t : State, s.cursor < s.rx.length → (∀ rest, s.pending ≠ .reset :: rest) → step s = .next t → t.rx = s.rx)

/-- 20_memory.md R35, 60_exceptions.md R128: no access fault and no trap exists: no step faults. -/
def Obligations.NoStepFaults : Prop :=
  ∀ (s : State) (f : Fault), step s ≠ .fault f

/-- 70_reset_and_hazards.md R145, R146: with no operation in progress every instruction completes, in
every build with HAS_DSP, an RX buffer longer than NMAX and a payload longer than 251 bytes apart. -/
def Obligations.EveryInstructionCompletesWhenIdle : Prop :=
  ∀ (i : Instr) (s : State), s.busy = false → s.params.hasDsp = true →
    (∀ buf, i = .decBuf buf → accepts s.params buf.length = true) →
    (∀ p dc, i = .dspApply p dc → p.length ≤ 251) → ∃ t, exec i s = .next t

/-- 70_reset_and_hazards.md R148, 00_scope.md R8, 10_state.md R13: where an instruction has no meaning:
a host operation begun while one is in progress; a buffer longer than NMAX (log 8); the dispatcher's
operations and units without HAS_DSP, the units also while an operation is in progress (log 13); a
payload longer than the 251 bytes of 20_memory.md R30, given to DSP.APPLY or in progress (log 22). -/
def Obligations.WhereInstructionsAreRefused : Prop :=
  (∀ (i : Instr) (s : State), i.space = .op → s.busy = true → exec i s = .refused .overlappingOperation)
  ∧ (∀ (buf : List Byte) (s : State) (m : Nat), s.busy = false → s.params.nmax = some m → m < buf.length →
      exec (.decBuf buf) s = .refused .bufferTooLong)
  ∧ (∀ (i : Instr) (s : State), s.params.hasDsp = false → i.space = .report →
      exec i s = .refused .noDispatcher)
  ∧ (∀ (i : Instr) (s : State), s.busy = false → s.params.hasDsp = false →
      ((∃ p dc, i = .dspApply p dc) ∨ ∃ sel, i = .stRd sel) → exec i s = .refused .noDispatcher)
  ∧ (∀ (p : List Byte) (dc : CondSet) (s : State), s.busy = false → s.params.hasDsp = true →
      251 < p.length → exec (.dspApply p dc) s = .refused .payloadTooLong)
  ∧ (∀ (p : List Byte) (s : State), (∀ rest, s.pending ≠ .reset :: rest) → s.report = some p →
      251 < p.length → step s = .refused .payloadTooLong)

/-- 10_state.md R28: an operation on one instance reads and writes only that instance's state. That
instances are a list, and that their numbers stay different, is log 16. -/
def Obligations.InstancesShareNothing : Prop :=
  (∀ (sys sys' : System) (k : Nat) (s s' : State), sys[k]? = some s → sys.stepAt k = .next sys' →
    step s = .next s' → sys'[k]? = some s' ∧ ∀ j, j ≠ k → sys'[j]? = sys[j]?)
  ∧ (∀ (sys sys' : System) (k : Nat), sys.wf → sys.stepAt k = .next sys' → sys'.wf)

/-- 20_memory.md R43, 70_reset_and_hazards.md R146: a run of host operations, presented as their
transactions, is the operations applied one by one in issue order. The requests placed in `pending` are
log 2, the transactions' byte layout is log 3. -/
def Obligations.ARunIsItsOperationsInIssueOrder : Prop :=
  ∀ (is : List Instr) (s t : State), (∀ i ∈ is, i.space = .op) → s.busy = false → s.pending = [] →
    runAll is s = .next t →
    Host.Core.run Sys2Proof.core is.length { s with pending := is.map fun i => .operation (encode i) } = .next t

/-! ### Decoding and stepping -/

/-- Decode of encode is the instruction, for every well-formed instruction and every operand
(30_encoding.md R47 to R54, R58; the operands' byte layout on OP is log 3). -/
def Obligations.DecodeOfEncodeIsTheInstruction : Prop :=
  ∀ i : Instr, i.WellFormed → decodeIn i.space (encode i) = .ok i

/-- What is decoded is well-formed and of its space; an OP transaction is exactly its encoding, a wire
unit is the bytes at the front of what it was read from (30_encoding.md R51), of the length the
decoder advances by; a report is the bytes at the front of its payload, and those past its fields are
ignored (43_dispatch.md R116). The layout of a transaction is log 3. -/
def Obligations.DecodedInstructionsAreWellFormed : Prop :=
  ∀ (sp : Space) (bs : List Byte) (i : Instr), decodeIn sp bs = .ok i →
    i.WellFormed ∧ i.space = sp
    ∧ (sp = .op → encode i = bs)
    ∧ (sp = .wire → encode i = bs.take (unitLength bs))
    ∧ (sp = .report → ∃ rest, bs = encode i ++ rest)

/-- A step runs the decoded instruction: the host's next operation, its transaction taken from the
requests; the unit at the cursor of a DEC.BUF in progress; the report in the payload of a DSP.APPLY in
progress, the payload taken. Where the bytes lie is the model's choice (logs 2, 10, 11). -/
def Obligations.StepRunsTheDecodedInstruction : Prop :=
  (∀ (s : State) (bs : List Byte) (rest : List HostRequest) (i : Instr), s.busy = false →
      s.pending = .operation bs :: rest → decodeIn .op bs = .ok i → step s = exec i { s with pending := rest })
  ∧ (∀ (s : State) (i : Instr), (∀ rest, s.pending ≠ .reset :: rest) → s.report = none →
      s.cursor < s.rx.length → decodeIn .wire (s.rx.drop s.cursor) = .ok i → step s = exec i s)
  ∧ (∀ (s : State) (p : List Byte) (i : Instr), (∀ rest, s.pending ≠ .reset :: rest) → s.report = some p →
      decodeIn .report p = .ok i → step s = exec i { s with report := none })

/-- 30_encoding.md R63: every operation code outside the table of R58 is refused, whatever follows it,
by the decoder and by the step. That the code is the first byte of a transaction is log 3; that the step
takes it from the oldest request in `pending` is log 2. -/
def Obligations.ReservedOperationCodesAreRefused : Prop :=
  ∀ (code : Byte) (args : List Byte),
    code ∉ [0x00#8, 0x01#8, 0x02#8, 0x03#8, 0x10#8, 0x11#8, 0x12#8, 0x13#8, 0x14#8, 0x20#8, 0x30#8, 0x31#8] →
    decodeIn .op (code :: args) = .error (.reservedOperation code)
    ∧ ∀ (s : State) (rest : List HostRequest), s.busy = false → s.pending = .operation (code :: args) :: rest →
        step s = .refused (.reservedOperation code)

/-- Bytes written out from the spec's layouts decode to what they stand for: the programs of
95_test_vectors.md section 6, the packets V3.1 and V3.17, the payload of F3, the table's word for
W.FRAME with length byte 2. The transactions' layout is log 3; that a table's word stands for bytes with
zeros where the row gives none is log 12. -/
def Obligations.WrittenBytesDecode : Prop :=
  decodeIn .op [0x01#8, 0x4C#8] = .ok (.crcUpd 0x4C#8)
  ∧ decodeIn .op [0x12#8, 0x00#8, 0x4B#8] = .ok (.encBrt 75#16)
  ∧ decodeIn .op [0x10#8, 0x02#8, 0x00#8, 0x65#8] = .ok (.encCmd 0x02#8 101#16)
  ∧ decodeIn .op [0x31#8, 0x01#8] = .ok (.stRd .brightness)
  ∧ decodeIn .wire [0x4C#8, 0x54#8, 0x09#8, 0x00#8, 0x20#8, 0x57#8, 0x00#8, 0x00#8, 0x01#8, 0x00#8, 0x28#8, 0x7A#8]
      = .ok (.wCmdPwr 0x00#8 0x287A#16)
  ∧ decodeIn .wire [0x4C#8, 0x54#8, 0x09#8, 0x00#8, 0x00#8, 0x53#8, 0x00#8, 0x00#8, 0x01#8, 0x00#8, 0x94#8, 0x74#8]
      = .ok .wQry
  ∧ decodeIn .report [0x03#8, 0x01#8, 0xAA#8, 0x4B#8, 0x32#8] = .ok (.rptSnap 0x01#8 0xAA#8 0x4B#8 0x32#8)
  ∧ decodeTableWord 24 0x4C5402 = some (.wFrame [0x4C#8, 0x54#8, 0x02#8, 0x00#8, 0x00#8])
end

