-- ==== Sys2Proof/Laws/Decode.lean ====
section
/-! SUPPORT. The byte order, the sequence operand, and the units of the wire: what the decoder's
parts do with what the encoder's parts write. -/

namespace Sys2Proof

/-! ### Byte order (00_scope.md R10) -/

theorem ofBe16_hi_lo (c : Half) : ofBe16 (hi c) (lo c) = c := by
  simp only [ofBe16, hi, lo]
  ext i hi'
  simp only [BitVec.getElem_append, BitVec.getElem_extractLsb']
  split
  · simp [BitVec.getLsbD_eq_getElem hi']
  · have : 8 + (i - 8) = i := by omega
    simp [this, BitVec.getLsbD_eq_getElem hi']

theorem hi_ofBe16 (h l : Byte) : hi (ofBe16 h l) = h := by
  simp only [ofBe16, hi]
  ext i hi'
  have e : (h ++ l : BitVec (8+8)).getLsbD (8 + i) = h[i] := by
    rw [BitVec.getLsbD_append, if_neg (by omega)]
    simp [BitVec.getLsbD_eq_getElem hi']
  simpa [BitVec.getElem_extractLsb'] using e

theorem lo_ofBe16 (h l : Byte) : lo (ofBe16 h l) = l := by
  simp only [ofBe16, lo]
  ext i hi'
  have e : (h ++ l : BitVec (8+8)).getLsbD i = l[i] := by
    rw [BitVec.getLsbD_append, if_pos hi', BitVec.getLsbD_eq_getElem hi']
  simpa [BitVec.getElem_extractLsb'] using e

/-! ### Sequence operands -/

theorem decodeSeq_encodeSeq (s : List Byte) : decodeSeq (encodeSeq s) = some s := by
  simp [decodeSeq, encodeSeq]

/-! ### The payload space (20_memory.md R30) -/

/-- What decodes as a report fits the space, and is the report unit of its bytes. -/
theorem decodePayload_eq_ok {p : List Byte} {i : Instr} :
    decodePayload p = .ok i ↔ p.length ≤ 251 ∧ decodeReport p = .ok i := by
  unfold decodePayload
  split <;> rename_i h <;> simp_all [Config.payloadMax]

/-! ### Command units (30_encoding.md R47) -/

@[simp] theorem isCommandUnit_commandUnit (sub v : Byte) (c : Half) :
    isCommandUnit (commandUnit sub v c) = true := rfl

/-- A unit with the fixed bytes of CMD12 is the CMD12 unit of its three fields. -/
theorem commandUnit_of_isCommandUnit {u : List Byte} (h : isCommandUnit u = true) :
    u = commandUnit (byteAt u 7) (byteAt u 9) (ofBe16 (byteAt u 10) (byteAt u 11)) := by
  simp only [isCommandUnit, Bool.and_eq_true, decide_eq_true_eq] at h
  obtain ⟨⟨hl, ht⟩, h8⟩ := h
  match u, hl with
  | [a0, a1, a2, a3, a4, a5, a6, a7, a8, a9, a10, a11], _ =>
    simp only [List.take_succ_cons, List.take_zero, List.cons.injEq, and_true] at ht
    obtain ⟨rfl, rfl, rfl, rfl, rfl, rfl, rfl⟩ := ht
    simp only [byteAt, List.getD_cons_succ, List.getD_cons_zero] at h8 ⊢
    subst h8
    simp [commandUnit, hi_ofBe16, lo_ofBe16]

/-- The unit at the front of a non-empty rest is well-formed as one unit (R51). -/
theorem isOneUnit_take_unitLength {bs : List Byte} (h : bs ≠ []) :
    WellFormed.isOneUnit (bs.take (unitLength bs)) = true := by
  have hl : bs.length ≠ 0 := by simpa using h
  simp only [WellFormed.isOneUnit, Bool.and_eq_true, Bool.or_eq_true, decide_eq_true_eq, List.length_take]
  unfold unitLength
  split
  · simp [hl]; omega
  · have e : (bs.take (min bs.length (3 + (byteAt bs 2).toNat))).getD 2 0#8 = bs.getD 2 0#8 := by
      simp [List.getD_eq_getElem?_getD, List.getElem?_take]; rw [if_pos (by omega)]
    simp only [WellFormed.byteAt, e]
    unfold byteAt
    constructor
    · simp; omega
    · right; omega

end Sys2Proof
end

