-- ==== Sys2Proof/Laws/State.lean ====
section
/-! SUPPORT. What each update of the state leaves in each field: one lemma per field per update, true
by definition, for simp. -/

namespace Sys2Proof.Machine

section
variable (s : State) (p : Ports)
@[simp] theorem deliver_params : (s.deliver p).params = s.params := rfl
@[simp] theorem deliver_crc : (s.deliver p).crc = s.crc := rfl
@[simp] theorem deliver_st : (s.deliver p).st = s.st := rfl
@[simp] theorem deliver_rx : (s.deliver p).rx = s.rx := rfl
@[simp] theorem deliver_cursor : (s.deliver p).cursor = s.cursor := rfl
@[simp] theorem deliver_report : (s.deliver p).report = s.report := rfl
@[simp] theorem deliver_ports : (s.deliver p).ports = p := rfl
@[simp] theorem deliver_pending : (s.deliver p).pending = s.pending := rfl
@[simp] theorem deliver_draws : (s.deliver p).draws = s.draws := rfl
@[simp] theorem deliver_device : (s.deliver p).device = s.device := rfl
end

section
variable (v : Half) (s : State)
@[simp] theorem raiseInvalidValue_params : (raiseInvalidValue v s).params = s.params := rfl
@[simp] theorem raiseInvalidValue_crc : (raiseInvalidValue v s).crc = s.crc := rfl
@[simp] theorem raiseInvalidValue_st : (raiseInvalidValue v s).st = s.st := rfl
@[simp] theorem raiseInvalidValue_rx : (raiseInvalidValue v s).rx = s.rx := rfl
@[simp] theorem raiseInvalidValue_cursor : (raiseInvalidValue v s).cursor = s.cursor := rfl
@[simp] theorem raiseInvalidValue_report : (raiseInvalidValue v s).report = s.report := rfl
@[simp] theorem raiseInvalidValue_ports :
    (raiseInvalidValue v s).ports = { res := some (.invalidValue v) } := rfl
@[simp] theorem raiseInvalidValue_pending : (raiseInvalidValue v s).pending = s.pending := rfl
@[simp] theorem raiseInvalidValue_draws : (raiseInvalidValue v s).draws = s.draws := rfl
@[simp] theorem raiseInvalidValue_device : (raiseInvalidValue v s).device = s.device := rfl
end

section
variable (p : List Byte) (s : State)
@[simp] theorem sendPacket_params : (sendPacket p s).params = s.params := rfl
@[simp] theorem sendPacket_crc : (sendPacket p s).crc = s.crc := rfl
@[simp] theorem sendPacket_st : (sendPacket p s).st = s.st := rfl
@[simp] theorem sendPacket_rx : (sendPacket p s).rx = s.rx := rfl
@[simp] theorem sendPacket_cursor : (sendPacket p s).cursor = s.cursor := rfl
@[simp] theorem sendPacket_report : (sendPacket p s).report = s.report := rfl
@[simp] theorem sendPacket_ports : (sendPacket p s).ports = { res := some .ok, tx := some p } := rfl
@[simp] theorem sendPacket_pending : (sendPacket p s).pending = s.pending := rfl
@[simp] theorem sendPacket_draws : (sendPacket p s).draws = s.draws := rfl
@[simp] theorem sendPacket_device : (sendPacket p s).device = s.device := rfl
end

section
variable (r : CondSet × DeviceState) (s : State)
@[simp] theorem answer_params : (answer r s).params = s.params := rfl
@[simp] theorem answer_crc : (answer r s).crc = s.crc := rfl
@[simp] theorem answer_st : (answer r s).st = r.2 := rfl
@[simp] theorem answer_rx : (answer r s).rx = s.rx := rfl
@[simp] theorem answer_cursor : (answer r s).cursor = s.cursor := rfl
@[simp] theorem answer_report : (answer r s).report = s.report := rfl
@[simp] theorem answer_ports : (answer r s).ports = { res := some (.conds r.1) } := rfl
@[simp] theorem answer_pending : (answer r s).pending = s.pending := rfl
@[simp] theorem answer_draws : (answer r s).draws = s.draws := rfl
@[simp] theorem answer_device : (answer r s).device = s.device := rfl
end

section
variable (buf : List Byte) (s : State)
@[simp] theorem startDecode_params : (startDecode buf s).params = s.params := rfl
@[simp] theorem startDecode_crc : (startDecode buf s).crc = s.crc := rfl
@[simp] theorem startDecode_st : (startDecode buf s).st = s.st := rfl
@[simp] theorem startDecode_rx : (startDecode buf s).rx = buf := rfl
@[simp] theorem startDecode_cursor : (startDecode buf s).cursor = 0 := rfl
@[simp] theorem startDecode_report : (startDecode buf s).report = s.report := rfl
@[simp] theorem startDecode_ports : (startDecode buf s).ports = {} := rfl
@[simp] theorem startDecode_pending : (startDecode buf s).pending = s.pending := rfl
@[simp] theorem startDecode_draws : (startDecode buf s).draws = s.draws := rfl
@[simp] theorem startDecode_device : (startDecode buf s).device = s.device := rfl
end

section
variable (r : Record) (n : Nat) (s : State)
@[simp] theorem emit_params : (emit r n s).params = s.params := by unfold emit; split <;> rfl
@[simp] theorem emit_crc : (emit r n s).crc = s.crc := by unfold emit; split <;> rfl
@[simp] theorem emit_rx : (emit r n s).rx = s.rx := by unfold emit; split <;> rfl
@[simp] theorem emit_cursor : (emit r n s).cursor = n := by unfold emit; split <;> rfl
@[simp] theorem emit_report : (emit r n s).report = s.report := by unfold emit; split <;> rfl
@[simp] theorem emit_pending : (emit r n s).pending = s.pending := by unfold emit; split <;> rfl
@[simp] theorem emit_draws : (emit r n s).draws = s.draws := by unfold emit; split <;> rfl
@[simp] theorem emit_device : (emit r n s).device = s.device := by unfold emit; split <;> rfl
@[simp] theorem emit_res : (emit r n s).ports.res = s.ports.res := by unfold emit; split <;> rfl
@[simp] theorem emit_tx : (emit r n s).ports.tx = s.ports.tx := by unfold emit; split <;> rfl
end

section
variable (rest : List HostRequest) (s : State)
@[simp] theorem resetInstance_params : (resetInstance rest s).params = s.params := rfl
@[simp] theorem resetInstance_crc : (resetInstance rest s).crc = 0x0000#16 := rfl
@[simp] theorem resetInstance_st : (resetInstance rest s).st = DeviceState.reset := rfl
@[simp] theorem resetInstance_rx : (resetInstance rest s).rx = [] := rfl
@[simp] theorem resetInstance_cursor : (resetInstance rest s).cursor = 0 := rfl
@[simp] theorem resetInstance_report : (resetInstance rest s).report = none := rfl
@[simp] theorem resetInstance_ports : (resetInstance rest s).ports = {} := rfl
@[simp] theorem resetInstance_pending : (resetInstance rest s).pending = rest := rfl
@[simp] theorem resetInstance_draws : (resetInstance rest s).draws = s.draws := rfl
@[simp] theorem resetInstance_device : (resetInstance rest s).device = s.device := rfl
end

section
variable (st : DeviceState) (v : Byte)
@[simp] theorem writeOn_onV : (st.writeOn v).onV = true := rfl
@[simp] theorem writeOn_brightness : (st.writeOn v).brightness = st.brightness := rfl
@[simp] theorem writeOn_brightnessV : (st.writeOn v).brightnessV = st.brightnessV := rfl
@[simp] theorem writeOn_tempCode : (st.writeOn v).tempCode = st.tempCode := rfl
@[simp] theorem writeOn_tempCodeV : (st.writeOn v).tempCodeV = st.tempCodeV := rfl
@[simp] theorem writeBrightness_on : (st.writeBrightness v).on = st.on := rfl
@[simp] theorem writeBrightness_onV : (st.writeBrightness v).onV = st.onV := rfl
@[simp] theorem writeBrightness_brightness : (st.writeBrightness v).brightness = v := rfl
@[simp] theorem writeBrightness_brightnessV : (st.writeBrightness v).brightnessV = true := rfl
@[simp] theorem writeBrightness_tempCode : (st.writeBrightness v).tempCode = st.tempCode := rfl
@[simp] theorem writeBrightness_tempCodeV : (st.writeBrightness v).tempCodeV = st.tempCodeV := rfl
@[simp] theorem writeTempCode_on : (st.writeTempCode v).on = st.on := rfl
@[simp] theorem writeTempCode_onV : (st.writeTempCode v).onV = st.onV := rfl
@[simp] theorem writeTempCode_brightness : (st.writeTempCode v).brightness = st.brightness := rfl
@[simp] theorem writeTempCode_brightnessV : (st.writeTempCode v).brightnessV = st.brightnessV := rfl
@[simp] theorem writeTempCode_tempCode : (st.writeTempCode v).tempCode = v := rfl
@[simp] theorem writeTempCode_tempCodeV : (st.writeTempCode v).tempCodeV = true := rfl
end

end Sys2Proof.Machine
end

