-- ==== Sys2Proof/Laws/Ops.lean ====
section
/-! SUPPORT. One lemma for each shared operation that says everything it can do, for the proofs to
cite instead of unfolding it. -/

namespace Sys2Proof.Machine

/-! ### Guards -/

/-- A host operation that answers a next state found no operation in progress. -/
theorem hostOp_eq_next {s t : State} {o : Host.Outcome State Fault Refusal} :
    hostOp s o = .next t ↔ s.busy = false ∧ o = .next t := by
  unfold hostOp
  split <;> simp_all

/-- With none in progress a host operation is its effect. -/
@[simp] theorem hostOp_idle {s : State} (h : s.busy = false) (o : Host.Outcome State Fault Refusal) :
    hostOp s o = o := by simp [hostOp, h]

/-- With one in progress it is refused. -/
@[simp] theorem hostOp_busy {s : State} (h : s.busy = true) (o : Host.Outcome State Fault Refusal) :
    hostOp s o = .refused .overlappingOperation := by simp [hostOp, h]

/-- A host operation faults only if its effect does. -/
theorem hostOp_eq_fault {s : State} {f : Fault} {o : Host.Outcome State Fault Refusal}
    (h : hostOp s o = .fault f) : o = .fault f := by
  unfold hostOp at h
  split at h
  · exact absurd h (by simp)
  · exact h

/-- A dispatcher operation that answers a next state is in a build with HAS_DSP. -/
theorem whenDsp_eq_next {s t : State} {o : Host.Outcome State Fault Refusal} :
    whenDsp s o = .next t ↔ s.params.hasDsp = true ∧ o = .next t := by
  unfold whenDsp
  split <;> simp_all

@[simp] theorem whenDsp_present {s : State} (h : s.params.hasDsp = true)
    (o : Host.Outcome State Fault Refusal) : whenDsp s o = o := by simp [whenDsp, h]

@[simp] theorem whenDsp_absent {s : State} (h : s.params.hasDsp = false)
    (o : Host.Outcome State Fault Refusal) : whenDsp s o = .refused .noDispatcher := by simp [whenDsp, h]

/-- A dispatcher operation faults only if its effect does. -/
theorem whenDsp_eq_fault {s : State} {f : Fault} {o : Host.Outcome State Fault Refusal}
    (h : whenDsp s o = .fault f) : o = .fault f := by
  unfold whenDsp at h
  split at h
  · exact h
  · exact absurd h (by simp)

/-! ### Byte spaces (20_memory.md R30 to R32) -/

/-- The bound of the payload space. -/
@[simp] theorem fitsPayload_iff {n : Nat} : fitsPayload n = true ↔ n ≤ 251 := by
  simp [fitsPayload, Config.payloadMax]

/-- A read inside the space gives as many bytes as it asks for. -/
theorem length_memRead {s : List Byte} {a n : Nat} (h : a + n ≤ s.length) : (memRead s a n).length = n := by
  simp only [memRead, List.length_take, List.length_drop]; omega

/-- A write inside the space keeps its length. -/
theorem length_memWrite {s v : List Byte} {a : Nat} (h : a + v.length ≤ s.length) :
    (memWrite s a v).length = s.length := by
  simp only [memWrite, List.length_append, List.length_take, List.length_drop]; omega

/-- Reading back what was written. -/
theorem memRead_memWrite_same {s v : List Byte} {a : Nat} (h : a + v.length ≤ s.length) :
    memRead (memWrite s a v) a v.length = v := by
  have ha : (s.take a).length = a := by simp only [List.length_take]; omega
  unfold memRead memWrite
  rw [List.append_assoc, List.drop_append_of_le_length (by omega), List.drop_of_length_le (by omega)]
  simp

/-- A write leaves every other offset alone. -/
theorem getElem?_memWrite_other {s v : List Byte} {a k : Nat} (h : a + v.length ≤ s.length)
    (hk : k < a ∨ a + v.length ≤ k) : (memWrite s a v)[k]? = s[k]? := by
  have ha : (s.take a).length = a := by simp only [List.length_take]; omega
  unfold memWrite
  rcases hk with hk | hk
  · rw [List.append_assoc, List.getElem?_append_left (by omega), List.getElem?_take_of_lt hk]
  · rw [List.getElem?_append_right (by simp only [List.length_append]; omega), List.getElem?_drop]
    congr 1
    simp only [List.length_append]
    omega

/-- A DSP.APPLY that answers a next state found nothing in progress, a dispatcher and a payload within
the space, and its answer is `dspApply`'s. -/
theorem execDspApply_eq_next {p : List Byte} {dc : CondSet} {s t : State} :
    execDspApply p dc s = .next t ↔ s.busy = false ∧ s.params.hasDsp = true ∧ p.length ≤ 251
      ∧ t = answer (dspApply s.params.gateMask p dc s.st) s := by
  unfold execDspApply
  rw [hostOp_eq_next, whenDsp_eq_next]
  split <;> rename_i h <;> rw [fitsPayload_iff] at h
  · simp only [h, Host.Outcome.next.injEq, true_and, eq_comm (a := t)]
  · simp only [h, reduceCtorEq, false_and, and_false]

/-! ### The CRC functions (40_crc.md R69) -/

@[simp] theorem crcFrom_nil (c : Half) : crcFrom c [] = c := rfl

@[simp] theorem crcFrom_cons (c : Half) (b : Byte) (s : List Byte) :
    crcFrom c (b :: s) = crcFrom (crcStep c b) s := rfl

/-- The register is the whole state of the computation (R74). -/
theorem crcFrom_append (c : Half) (s t : List Byte) : crcFrom c (s ++ t) = crcFrom (crcFrom c s) t := by
  simp [crcFrom]

@[simp] theorem length_checksum (s : List Byte) : (checksum s).length = 2 := rfl

/-! ### The frame step (42_decoder.md R93) -/

/-- A frame step at a cursor inside the buffer consumes at least one byte and none past the end (R92). -/
theorem decFrame_next {buf : List Byte} {cursor : Nat} (h : cursor < buf.length) :
    cursor < (decFrame buf cursor).2 ∧ (decFrame buf cursor).2 ≤ buf.length := by
  unfold decFrame
  dsimp only
  split
  · exact ⟨h, le_refl _⟩
  · split <;> constructor <;> dsimp only <;> omega

/-- The record says where the step began. -/
theorem decFrame_start (buf : List Byte) (cursor : Nat) : (decFrame buf cursor).1.start = cursor := by
  unfold decFrame wholeFrame reportRecord
  dsimp only
  split_ifs <;> rfl

/-- The record says how many bytes the step consumed. -/
theorem decFrame_flen {buf : List Byte} {cursor : Nat} (h : cursor < buf.length) :
    cursor + (decFrame buf cursor).1.flen = (decFrame buf cursor).2 := by
  unfold decFrame wholeFrame reportRecord
  dsimp only
  split_ifs <;> dsimp only <;> omega

/-- What emission adds to REC: one element, for the record given. -/
theorem emit_records (r : Record) (n : Nat) (s : State) :
    ∃ d, (emit r n s).ports.records = s.ports.records ++ [{ record := r, dispatched := d }]
      ∧ d.isSome = (s.params.hasDsp && r.kind = .report) := by
  unfold emit
  split <;> rename_i h
  · exact ⟨_, rfl, by simp_all⟩
  · exact ⟨_, rfl, by simp_all⟩

/-- Device State changes at an emission only through the dispatcher. -/
theorem emit_st (r : Record) (n : Nat) (s : State) :
    (emit r n s).st
      = if s.params.hasDsp && r.kind = .report then (dspApply s.params.gateMask r.payload r.cond s.st).2
        else s.st := by
  unfold emit
  split <;> rfl

end Sys2Proof.Machine
end

