-- ==== Sys2Proof/Laws/PerInstr.lean ====
section
/-! SUPPORT. Families of lemmas with one lemma per constructor of Instr. -/

/-! ### EncodedNonempty: no well-formed instruction is encoded as no bytes at all -/

namespace Sys2Proof.Laws.EncodedNonempty

/-- The family's statement. -/
def Statement (i : Instr) : Prop := i.WellFormed → encode i ≠ []

theorem crcClr : Statement .crcClr := fun _ => List.cons_ne_nil _ _
theorem crcUpd (b : Byte) : Statement (.crcUpd b) := fun _ => List.cons_ne_nil _ _
theorem crcRd : Statement .crcRd := fun _ => List.cons_ne_nil _ _
theorem crcSum (s : List Byte) : Statement (.crcSum s) := fun _ => List.cons_ne_nil _ _
theorem encCmd (sub : Byte) (v : Half) : Statement (.encCmd sub v) := fun _ => List.cons_ne_nil _ _
theorem encPwr (v : Half) : Statement (.encPwr v) := fun _ => List.cons_ne_nil _ _
theorem encBrt (v : Half) : Statement (.encBrt v) := fun _ => List.cons_ne_nil _ _
theorem encCct (v : Half) : Statement (.encCct v) := fun _ => List.cons_ne_nil _ _
theorem encQry : Statement .encQry := fun _ => List.cons_ne_nil _ _
theorem decBuf (buf : List Byte) : Statement (.decBuf buf) := fun _ => List.cons_ne_nil _ _
theorem dspApply (p : List Byte) (dc : CondSet) : Statement (.dspApply p dc) := fun _ => List.cons_ne_nil _ _
theorem stRd (sel : Selector) : Statement (.stRd sel) := fun _ => List.cons_ne_nil _ _
theorem wCmd (sub v : Byte) (c : Half) : Statement (.wCmd sub v c) := fun _ => List.cons_ne_nil _ _
theorem wCmdPwr (v : Byte) (c : Half) : Statement (.wCmdPwr v c) := fun _ => List.cons_ne_nil _ _
theorem wCmdBrt (v : Byte) (c : Half) : Statement (.wCmdBrt v c) := fun _ => List.cons_ne_nil _ _
theorem wCmdCct (v : Byte) (c : Half) : Statement (.wCmdCct v c) := fun _ => List.cons_ne_nil _ _
theorem wQry : Statement .wQry := fun _ => List.cons_ne_nil _ _
theorem wFrame (u : List Byte) : Statement (.wFrame u) := by
  intro h e
  have hu : u = [] := e
  subst hu
  exact absurd h (by decide)
theorem rptUpdPwr (v : Byte) : Statement (.rptUpdPwr v) := fun _ => List.cons_ne_nil _ _
theorem rptUpdBrt (v : Byte) : Statement (.rptUpdBrt v) := fun _ => List.cons_ne_nil _ _
theorem rptUpdCct (v : Byte) : Statement (.rptUpdCct v) := fun _ => List.cons_ne_nil _ _
theorem rptSnap (p u b t : Byte) : Statement (.rptSnap p u b t) := fun _ => List.cons_ne_nil _ _
theorem rptUpdOther (k v : Byte) : Statement (.rptUpdOther k v) := fun _ => List.cons_ne_nil _ _
theorem rptOther (g : Byte) : Statement (.rptOther g) := fun _ => List.cons_ne_nil _ _

end Sys2Proof.Laws.EncodedNonempty
end

