-- ==== Sys2Proof/Laws/Step.lean ====
section
/-! SUPPORT. What a step can find, how the frame step sees one unit only, and how runs unfold. -/

namespace Sys2Proof.Machine

/-- No operation is in progress. -/
theorem busy_eq_false {s : State} : s.busy = false ↔ s.report = none ∧ ¬ s.cursor < s.rx.length := by
  simp [State.busy, Option.isSome_eq_false_iff]

/-! ### Fetching -/

/-- Everything `fetch` can find, with the condition it finds it under. -/
theorem fetch_cases (s : State) :
    fetch s = .idle
    ∨ (∃ r, s.pending = .reset :: r ∧ fetch s = .reset r)
    ∨ (∃ bs r, s.pending = .operation bs :: r ∧ s.busy = false
        ∧ fetch s = .bytes .op bs { s with pending := r })
    ∨ (s.report = none ∧ s.cursor < s.rx.length ∧ fetch s = .bytes .wire (s.rx.drop s.cursor) s)
    ∨ (∃ p, s.report = some p ∧ fetch s = .bytes .report p { s with report := none }) := by
  unfold fetch
  split
  · rename_i r h; exact .inr (.inl ⟨r, h, rfl⟩)
  · rename_i hh
    unfold fetchInstruction
    split
    · rename_i p h; exact .inr (.inr (.inr (.inr ⟨p, h, rfl⟩)))
    · rename_i h
      split
      · rename_i hc; exact .inr (.inr (.inr (.inl ⟨h, hc, rfl⟩)))
      · rename_i hc
        unfold fetchOperation
        split
        · rename_i bs r hp; exact .inr (.inr (.inl ⟨bs, r, hp, busy_eq_false.2 ⟨h, hc⟩, rfl⟩))
        · rename_i r hp; exact absurd hp (hh r)
        · exact .inl rfl

/-- The one rejection that has a next state. -/
theorem reject_eq_next {e : DecodeError} {bs : List Byte} {s t : State} (h : reject e bs s = .next t) :
    t = answer (applyReport bs s.st) s := by
  cases e <;> simp [reject] at h
  simp only [applyNoUnit, whenDsp_eq_next] at h
  obtain ⟨_, h⟩ := h
  cases h
  rfl

/-! ### The frame step sees the unit at the cursor and nothing else -/

theorem byteAt_drop (s : List Byte) (c k : Nat) : byteAt s (c + k) = byteAt (s.drop c) k := by
  simp [byteAt, List.getD_eq_getElem?_getD]

theorem memRead_drop (s : List Byte) (c a n : Nat) : memRead s (c + a) n = memRead (s.drop c) a n := by
  simp [memRead]

theorem wholeFrame_drop (s : List Byte) (c L : Nat) (cond : CondSet) :
    wholeFrame s c L cond = { wholeFrame (s.drop c) 0 L cond with start := c } := by
  have e1 := memRead_drop s c 3 L
  have e2 := memRead_drop s c 0 (3 + L - 2)
  simp only [Nat.add_zero] at e2
  unfold wholeFrame reportRecord
  simp only [e1, e2, Nat.zero_add]
  split_ifs <;> rfl

/-- A frame step at a cursor is the frame step at the front of what is left, moved on. -/
theorem decFrame_drop {s : List Byte} {c : Nat} (h : c ≤ s.length) :
    decFrame s c
      = ({ (decFrame (s.drop c) 0).1 with start := c + (decFrame (s.drop c) 0).1.start },
         c + (decFrame (s.drop c) 0).2) := by
  have e0 := memRead_drop s c 0 2
  simp only [Nat.add_zero] at e0
  unfold decFrame
  simp only [wholeFrame_drop s c, e0, byteAt_drop s c 2, List.length_drop, Nat.zero_add, Nat.sub_zero]
  by_cases h1 : s.length - c < 3
  · simp only [h1, if_true]; simp; omega
  · simp only [h1, if_false]
    have h3 : s.length < c + 3 + u8 (byteAt (s.drop c) 2) ↔ s.length - c < 3 + u8 (byteAt (s.drop c) 2) := by
      omega
    simp only [h3]
    split
    · simp; omega
    · have : ∀ L cond, (wholeFrame (s.drop c) 0 L cond).start = 0 := by
        intro L cond
        unfold wholeFrame reportRecord
        dsimp only
        split_ifs <;> rfl
      simp [this]; omega

/-- A frame step at the front looks at no byte past the unit there. -/
theorem decFrame_take_unitLength (r : List Byte) : decFrame r 0 = decFrame (r.take (unitLength r)) 0 := by
  by_cases h1 : r.length < 3
  · simp [unitLength, h1, List.take_of_length_le]
  · by_cases h2 : r.length < 3 + (byteAt r 2).toNat
    · have : unitLength r = r.length := by simp [unitLength, h1]; omega
      rw [this]; simp
    · have hu : unitLength r = 3 + (byteAt r 2).toNat := by simp [unitLength, h1]; omega
      rw [hu]
      generalize hL : (byteAt r 2).toNat = L at *
      have hb : byteAt (r.take (3 + L)) 2 = byteAt r 2 := by
        simp [byteAt, List.getD_eq_getElem?_getD, List.getElem?_take]; rw [if_pos (by omega)]
      have hm : ∀ a n, a + n ≤ 3 + L → memRead (r.take (3 + L)) a n = memRead r a n := by
        intro a n h; simp [memRead, List.drop_take, List.take_take]; omega
      have hlen : (r.take (3 + L)).length = 3 + L := by simp; omega
      unfold decFrame
      simp only [hlen, Nat.sub_zero, Nat.zero_add, h1, if_false, hb, u8, hL]
      rw [if_neg (by omega), if_neg (by omega), if_neg (by omega), hm 0 2 (by omega)]
      unfold wholeFrame
      simp only [Nat.zero_add]
      by_cases hL2 : L < 2
      · simp [hL2]
      · simp only [hL2, if_false]
        rw [hm 3 L (by omega), hm 0 (3 + L - 2) (by omega)]

/-- One pass of DEC.BUF's loop is the step of the unit at the cursor. -/
theorem frameStep_eq_unitStep {s : State} (h : s.cursor ≤ s.rx.length) :
    frameStep s = unitStep ((s.rx.drop s.cursor).take (unitLength (s.rx.drop s.cursor))) s := by
  unfold frameStep unitStep
  rw [decFrame_drop h, decFrame_take_unitLength]

/-- Every wire unit, whichever row of the table it is, is executed as a unit. -/
theorem exec_classifyUnit (u : List Byte) (s : State) : exec (classifyUnit u) s = .next (unitStep u s) := by
  unfold classifyUnit
  split
  · rename_i h
    have := commandUnit_of_isCommandUnit h
    unfold classifyCommand
    conv_rhs => rw [this]
    split_ifs with h1 h2 h3
    · simp only [exec, execWCmdPwr, h1]; rfl
    · simp only [exec, execWCmdBrt, h2]; rfl
    · simp only [exec, execWCmdCct, h3]; rfl
    · rfl
  · split
    · rename_i h; subst h; rfl
    · rfl

/-! ### Runs -/

/-- One step of a run that answers a next state. -/
theorem run_succ {M : Host.Core} (n : Nat) {s s' : M.State} (h : M.step s = .next s') :
    M.run (n + 1) s = M.run n s' := by
  simp [Host.Core.run, h]

end Sys2Proof.Machine
end

