-- ==== Sys2Proof/Tests/Slice0.lean ====
section
/-! SUPPORT. Tests. Expected values come from spec/95_test_vectors.md (V…), from the byte layouts of
spec/30_encoding.md, or from the rule a test's comment names; then, for every statement with
hypotheses, a witness that meets them. -/

namespace Sys2Proof.Tests

set_option Elab.async false

open Sys2Proof Sys2Proof.Machine

/-! ### Helpers -/

/-- The outcome is a next state with the property. -/
def nextWith (o : Host.Outcome State Fault Refusal) (p : State → Bool) : Bool :=
  match o with
  | .next s => p s
  | .fault _ => false
  | .refused _ => false

/-- The outcome is the refusal. -/
def refusedWith (o : Host.Outcome State Fault Refusal) (r : Refusal) : Bool :=
  match o with
  | .next _ => false
  | .fault _ => false
  | .refused r' => r' = r

/-- After reset, with a value in `crc`. -/
def withCrc (c : Half) : State := { State.reset with crc := c }
/-- A DEC.BUF with one byte left is in progress. -/
def busyState : State := { State.reset with rx := [0x00#8] }
/-- A build without STRICT_DOMAIN. -/
def looseState : State := { State.reset with params := { Params.decided with strictDomain := false } }
/-- A build without HAS_DSP. -/
def bareState : State := { State.reset with params := { Params.decided with hasDsp := false } }
/-- A build whose port takes buffers of one byte. -/
def narrowState : State := { State.reset with params := { Params.decided with nmax := some 1 } }
/-- A build whose dispatcher skips reports with HeaderMismatch (V5.21). -/
def gatedState : State := { State.reset with params := { Params.decided with gateMask := only .headerMismatch } }
/-- The state after V5.10. -/
def litState : State :=
  { State.reset with
    st := { on := true, onV := true, brightness := 75#8, brightnessV := true, tempCode := 50#8, tempCodeV := true } }
/-- A reset is the host's next request, with a DEC.BUF in progress. -/
def resetRequested : State := { busyState with pending := [.reset, .operation [0x00#8]] }

/-- F1, F2, F3, F4 of 95_test_vectors.md section 4. -/
def f1 : List Byte := [0x4C#8, 0x54#8, 0x07#8, 0x00#8, 0x20#8, 0x02#8, 0x00#8, 0x01#8, 0x4D#8, 0x78#8]
def f2 : List Byte := [0x4C#8, 0x54#8, 0x07#8, 0x00#8, 0x20#8, 0x02#8, 0x02#8, 0x4B#8, 0xC2#8, 0x94#8]
def f3 : List Byte :=
  [0x4C#8, 0x54#8, 0x09#8, 0x00#8, 0x20#8, 0x03#8, 0x01#8, 0xAA#8, 0x4B#8, 0x32#8, 0x4C#8, 0xB1#8]
def f4 : List Byte := [0x4C#8, 0x54#8, 0x07#8, 0x00#8, 0x20#8, 0x02#8, 0x03#8, 0x28#8, 0xAD#8, 0x60#8]

/-- The records on REC. -/
def recordsOf (s : State) : List Record := s.ports.records.map (·.record)

/-! ### WellFormed refuses an ill-formed term for each of its checks -/

theorem test_wf_wCmd_named_subcommand : (Instr.wCmd 0x02#8 0x4B#8 0xBFB5#16).wellFormed = false := by decide
theorem test_wf_wFrame_no_byte : (Instr.wFrame []).wellFormed = false := by decide
theorem test_wf_wFrame_past_its_length : (Instr.wFrame [0x4C#8, 0x54#8, 0x00#8, 0x00#8]).wellFormed = false := by
  decide
theorem test_wf_wFrame_is_a_command :
    (Instr.wFrame [0x4C#8, 0x54#8, 0x09#8, 0x00#8, 0x20#8, 0x57#8, 0x00#8, 0x02#8, 0x01#8, 0x4B#8, 0xBF#8, 0xB5#8]).wellFormed
      = false := by decide
theorem test_wf_wFrame_is_the_query :
    (Instr.wFrame [0x4C#8, 0x54#8, 0x09#8, 0x00#8, 0x00#8, 0x53#8, 0x00#8, 0x00#8, 0x01#8, 0x00#8, 0x94#8, 0x74#8]).wellFormed
      = false := by decide
theorem test_wf_rptUpdOther_named_key : (Instr.rptUpdOther 0x03#8 0x00#8).wellFormed = false := by decide
theorem test_wf_rptOther_update : (Instr.rptOther 0x02#8).wellFormed = false := by decide
theorem test_wf_rptOther_snapshot : (Instr.rptOther 0x03#8).wellFormed = false := by decide
theorem test_wf_wFrame_f1 : (Instr.wFrame f1).wellFormed = true := by decide

/-! ### Decoding: for every constructor, bytes written out from the spec's layout -/

/- Operations: 30_encoding.md R58, operands as in 95_test_vectors.md section 6. -/
theorem test_decode_crcClr : decodeIn .op [0x00#8] = .ok .crcClr := rfl
theorem test_decode_crcUpd : decodeIn .op [0x01#8, 0x54#8] = .ok (.crcUpd 0x54#8) := rfl
theorem test_decode_crcRd : decodeIn .op [0x02#8] = .ok .crcRd := rfl
theorem test_decode_crcSum : decodeIn .op [0x03#8, 0x02#8, 0x4C#8, 0x54#8] = .ok (.crcSum [0x4C#8, 0x54#8]) := rfl
theorem test_decode_encCmd : decodeIn .op [0x10#8, 0x05#8, 0xFF#8, 0x80#8] = .ok (.encCmd 0x05#8 0xFF80#16) := rfl
theorem test_decode_encPwr : decodeIn .op [0x11#8, 0x00#8, 0x01#8] = .ok (.encPwr 1#16) := rfl
theorem test_decode_encBrt : decodeIn .op [0x12#8, 0x00#8, 0x4B#8] = .ok (.encBrt 75#16) := rfl
theorem test_decode_encCct : decodeIn .op [0x13#8, 0x01#8, 0x28#8] = .ok (.encCct 296#16) := rfl
theorem test_decode_encQry : decodeIn .op [0x14#8] = .ok .encQry := rfl
theorem test_decode_decBuf : decodeIn .op (0x20#8 :: 0x0A#8 :: f2) = .ok (.decBuf f2) := rfl
theorem test_decode_dspApply :
    decodeIn .op [0x30#8, 0x03#8, 0x02#8, 0x00#8, 0x01#8, 0x02#8] = .ok (.dspApply [0x02#8, 0x00#8, 0x01#8] 0x02#8) := rfl
theorem test_decode_stRd : decodeIn .op [0x31#8, 0x02#8] = .ok (.stRd .tempCode) := rfl
/- Wire units: R47, R48, R50; packets V3.16, V3.2, V3.6, V3.9, V3.17, frame F3. -/
theorem test_decode_wCmd :
    decodeIn .wire [0x4C#8, 0x54#8, 0x09#8, 0x00#8, 0x20#8, 0x57#8, 0x00#8, 0x05#8, 0x01#8, 0x09#8, 0x52#8, 0xA3#8]
      = .ok (.wCmd 0x05#8 0x09#8 0x52A3#16) := rfl
theorem test_decode_wCmdPwr :
    decodeIn .wire [0x4C#8, 0x54#8, 0x09#8, 0x00#8, 0x20#8, 0x57#8, 0x00#8, 0x00#8, 0x01#8, 0x01#8, 0x38#8, 0x5B#8]
      = .ok (.wCmdPwr 0x01#8 0x385B#16) := rfl
theorem test_decode_wCmdBrt :
    decodeIn .wire [0x4C#8, 0x54#8, 0x09#8, 0x00#8, 0x20#8, 0x57#8, 0x00#8, 0x02#8, 0x01#8, 0x4B#8, 0xBF#8, 0xB5#8]
      = .ok (.wCmdBrt 0x4B#8 0xBFB5#16) := rfl
theorem test_decode_wCmdCct :
    decodeIn .wire [0x4C#8, 0x54#8, 0x09#8, 0x00#8, 0x20#8, 0x57#8, 0x00#8, 0x03#8, 0x01#8, 0x28#8, 0xD4#8, 0x40#8]
      = .ok (.wCmdCct 0x28#8 0xD440#16) := rfl
theorem test_decode_wQry :
    decodeIn .wire [0x4C#8, 0x54#8, 0x09#8, 0x00#8, 0x00#8, 0x53#8, 0x00#8, 0x00#8, 0x01#8, 0x00#8, 0x94#8, 0x74#8]
      = .ok .wQry := rfl
theorem test_decode_wFrame_stops_at_its_length : decodeIn .wire (f3 ++ f1) = .ok (.wFrame f3) := by decide
theorem test_decode_wFrame_cut_off : decodeIn .wire [0x4C#8, 0x54#8] = .ok (.wFrame [0x4C#8, 0x54#8]) := rfl
/- A byte other than CMD12's fixed bytes makes the unit a W.FRAME (R47). -/
theorem test_decode_wFrame_offset_8 :
    decodeIn .wire [0x4C#8, 0x54#8, 0x09#8, 0x00#8, 0x20#8, 0x57#8, 0x00#8, 0x02#8, 0x02#8, 0x4B#8, 0xBF#8, 0xB5#8]
      = .ok (.wFrame
        [0x4C#8, 0x54#8, 0x09#8, 0x00#8, 0x20#8, 0x57#8, 0x00#8, 0x02#8, 0x02#8, 0x4B#8, 0xBF#8, 0xB5#8]) := rfl
/- Report units: R52 to R54; V5.1, V5.4, V5.7, V5.10, V5.13, V5.14, V5.17. -/
theorem test_decode_rptUpdPwr : decodeIn .report [0x02#8, 0x00#8, 0x01#8] = .ok (.rptUpdPwr 0x01#8) := rfl
theorem test_decode_rptUpdBrt :
    decodeIn .report [0x02#8, 0x02#8, 0x4B#8, 0x99#8, 0x99#8] = .ok (.rptUpdBrt 0x4B#8) := rfl
theorem test_decode_rptUpdCct : decodeIn .report [0x02#8, 0x03#8, 0x28#8] = .ok (.rptUpdCct 0x28#8) := rfl
theorem test_decode_rptSnap :
    decodeIn .report [0x03#8, 0x01#8, 0xAA#8, 0x4B#8, 0x32#8] = .ok (.rptSnap 0x01#8 0xAA#8 0x4B#8 0x32#8) := rfl
theorem test_decode_rptUpdOther : decodeIn .report [0x02#8, 0x07#8, 0x05#8] = .ok (.rptUpdOther 0x07#8 0x05#8) := rfl
theorem test_decode_rptOther : decodeIn .report [0x09#8, 0x01#8] = .ok (.rptOther 0x09#8) := rfl
/- Rejections: R63, R115, R116, 42_decoder.md R93; the operand layout is log 4. -/
theorem test_decode_reserved : decodeIn .op [0x04#8, 0x00#8] = .error (.reservedOperation 0x04#8) := rfl
theorem test_decode_reserved_selector : decodeIn .op [0x31#8, 0x03#8] = .error (.reservedSelector 0x03#8) := rfl
theorem test_decode_malformed : decodeIn .op [0x11#8, 0x00#8] = .error (.malformedOperands 0x11#8) := rfl
theorem test_decode_malformed_sequence :
    decodeIn .op [0x03#8, 0x02#8, 0x4C#8] = .error (.malformedOperands 0x03#8) := rfl
theorem test_decode_no_code : decodeIn .op [] = .error .emptyTransaction := rfl
theorem test_decode_no_unit : decodeIn .wire [] = .error .emptyUnit := rfl
theorem test_decode_short_update : decodeIn .report [0x02#8, 0x00#8] = .error .shortPayload := rfl
theorem test_decode_short_snapshot : decodeIn .report [0x03#8, 0x01#8, 0xAA#8, 0x4B#8] = .error .shortPayload := rfl
/- The payload space holds 251 bytes (20_memory.md R30). -/
theorem test_decode_longest_payload :
    decodeIn .report (0x09#8 :: List.replicate 250 0x00#8) = .ok (.rptOther 0x09#8) := by decide +kernel
theorem test_decode_long_payload :
    decodeIn .report (0x09#8 :: List.replicate 251 0x00#8) = .error .longPayload := by decide +kernel
/- Words of the opcode table, big-endian (R46). -/
theorem test_table_op : decodeTableWord 8 0x31 = some (.stRd .on) := rfl
theorem test_table_cct : decodeTableWord 96 0x4C5409002057000301000000 = some (.wCmdCct 0x00#8 0x0000#16) := rfl
theorem test_table_cmd : decodeTableWord 96 0x4C5409002057000501092233 = some (.wCmd 0x05#8 0x09#8 0x2233#16) := rfl
theorem test_table_snap : decodeTableWord 40 0x0301AA4B32 = some (.rptSnap 0x01#8 0xAA#8 0x4B#8 0x32#8) := rfl
theorem test_table_category : decodeTableWord 8 0x09 = some (.rptOther 0x09#8) := rfl

/-! ### One step of each instruction -/

/- V2.8: `4C` then `4C 54`; V2.3; V2.7. -/
theorem test_crcClr : nextWith (exec .crcClr (withCrc 0x8948#16)) (·.crc = 0x0000#16) = true := by decide
theorem test_crcUpd_first : nextWith (exec (.crcUpd 0x4C#8) (withCrc 0x0000#16)) (·.crc = 0x8948#16) = true := by
  decide +kernel
theorem test_crcUpd_second : nextWith (exec (.crcUpd 0x54#8) (withCrc 0x8948#16)) (·.crc = 0x52D0#16) = true := by
  decide +kernel
theorem test_crcRd :
    nextWith (exec .crcRd (withCrc 0x3B9E#16))
      (fun s => s.crc = 0x3B9E#16 && s.ports.res = some (.sum 0x3B#8 0x9E#8)) = true := by decide
/- V2.2, and R73: `crc` is not touched. -/
theorem test_crcSum :
    nextWith (exec (.crcSum [0x31#8, 0x32#8, 0x33#8, 0x34#8, 0x35#8, 0x36#8, 0x37#8, 0x38#8, 0x39#8]) (withCrc 0x1021#16))
      (fun s => s.crc = 0x1021#16 && s.ports.res = some (.sum 0x31#8 0xC3#8)) = true := by decide +kernel
theorem test_crcSum_empty :
    nextWith (exec (.crcSum []) (withCrc 0x1021#16)) (·.ports.res = some (.sum 0x00#8 0x00#8)) = true := by decide
/- V3.12, V3.14. -/
theorem test_encCmd :
    nextWith (exec (.encCmd 0x00#8 (-128#16)) State.reset)
      (·.ports.tx = some
        [0x4C#8, 0x54#8, 0x09#8, 0x00#8, 0x20#8, 0x57#8, 0x00#8, 0x00#8, 0x01#8, 0x80#8, 0xB9#8, 0xF2#8]) = true := by
  decide +kernel
theorem test_encCmd_no_truncation :
    nextWith (exec (.encCmd 0x00#8 256#16) State.reset)
      (fun s => s.ports.tx = none && s.ports.res = some (.invalidValue 256#16)) = true := by decide
/- V3.2, V3.3. -/
theorem test_encPwr :
    nextWith (exec (.encPwr 1#16) State.reset)
      (·.ports.tx = some
        [0x4C#8, 0x54#8, 0x09#8, 0x00#8, 0x20#8, 0x57#8, 0x00#8, 0x00#8, 0x01#8, 0x01#8, 0x38#8, 0x5B#8]) = true := by
  decide +kernel
theorem test_encPwr_loose :
    nextWith (exec (.encPwr 2#16) looseState)
      (·.ports.tx = some
        [0x4C#8, 0x54#8, 0x09#8, 0x00#8, 0x20#8, 0x57#8, 0x00#8, 0x00#8, 0x01#8, 0x02#8, 0x08#8, 0x38#8]) = true := by
  decide +kernel
/- V3.5, V3.10. -/
theorem test_encBrt :
    nextWith (exec (.encBrt 100#16) State.reset)
      (·.ports.tx = some
        [0x4C#8, 0x54#8, 0x09#8, 0x00#8, 0x20#8, 0x57#8, 0x00#8, 0x02#8, 0x01#8, 0x64#8, 0x6A#8, 0x38#8]) = true := by
  decide +kernel
theorem test_encBrt_negative :
    nextWith (exec (.encBrt (-1#16)) State.reset) (·.ports = { res := some (.invalidValue 0xFFFF#16) }) = true := by
  decide
/- V3.8, V3.10. -/
theorem test_encCct :
    nextWith (exec (.encCct 56#16) State.reset)
      (·.ports.tx = some
        [0x4C#8, 0x54#8, 0x09#8, 0x00#8, 0x20#8, 0x57#8, 0x00#8, 0x03#8, 0x01#8, 0x38#8, 0xC6#8, 0x71#8]) = true := by
  decide +kernel
theorem test_encCct_below :
    nextWith (exec (.encCct 31#16) State.reset) (·.ports = { res := some (.invalidValue 31#16) }) = true := by decide
/- V3.17, with V2's last sequence: `crc` is not touched. -/
theorem test_encQry :
    nextWith (exec .encQry (withCrc 0x1021#16))
      (fun s => s.crc = 0x1021#16 && s.ports.tx = some
        [0x4C#8, 0x54#8, 0x09#8, 0x00#8, 0x00#8, 0x53#8, 0x00#8, 0x00#8, 0x01#8, 0x00#8, 0x94#8, 0x74#8]) = true := by
  decide +kernel
/- V4.8, V4.18. -/
theorem test_decBuf_cut_off :
    nextWith (exec (.decBuf (f1 ++ f3.take 7)) State.reset)
      (fun s => s.st.on && s.st.onV && !s.st.brightnessV && s.cursor = 17 && recordsOf s =
        [ { kind := .report, cond := 0#8, start := 0, flen := 10, payload := [0x02#8, 0x00#8, 0x01#8] },
          { kind := .truncated, cond := 0x04#8, start := 10, flen := 7, payload := [] } ]) = true := by decide +kernel
theorem test_decBuf_zeros :
    nextWith (exec (.decBuf (List.replicate 7 0x00#8)) State.reset)
      (fun s => recordsOf s =
        [ { kind := .dropped, cond := 0x0A#8, start := 0, flen := 3, payload := [] },
          { kind := .dropped, cond := 0x0A#8, start := 3, flen := 3, payload := [] },
          { kind := .truncated, cond := 0x04#8, start := 6, flen := 1, payload := [] } ]) = true := by decide +kernel
/- V5.10, V5.21. -/
theorem test_dspApply :
    nextWith (exec (.dspApply [0x03#8, 0x01#8, 0xAA#8, 0x4B#8, 0x32#8] 0#8) State.reset) (·.st = litState.st) = true := by
  decide
theorem test_dspApply_gated :
    nextWith (exec (.dspApply [0x02#8, 0x00#8, 0x01#8] 0x02#8) gatedState)
      (fun s => s.st = State.reset.st && s.ports.res = some (.conds 0#8)) = true := by decide
/- V5.20: `(1, 75)`; V5.19: valid bit 0. -/
theorem test_stRd :
    nextWith (exec (.stRd .brightness) litState) (·.ports.res = some (.read true (.code 75#8))) = true := by decide
theorem test_stRd_invalid :
    nextWith (exec (.stRd .tempCode) State.reset)
      (fun s => match s.ports.res with | some (.read valid _) => !valid | _ => false) = true := by decide
/- R49, R97: a command unit with its own checksum (V3.16, V3.2, V3.6, V3.9) or with another. -/
theorem test_wCmd :
    nextWith (exec (.wCmd 0x05#8 0x09#8 0x52A3#16) litState)
      (fun s => s.cursor = 12 && s.st = litState.st && recordsOf s =
        [ { kind := .report, cond := 0#8, start := 0, flen := 12, payload := [0x57#8, 0x00#8, 0x05#8, 0x01#8, 0x09#8] } ])
      = true := by decide +kernel
theorem test_wCmdPwr :
    nextWith (exec (.wCmdPwr 0x01#8 0x385C#16) State.reset)
      (fun s => recordsOf s =
        [ { kind := .dropped, cond := 0x08#8, start := 0, flen := 12, payload := [] } ]) = true := by decide +kernel
theorem test_wCmdBrt :
    nextWith (exec (.wCmdBrt 0x4B#8 0xBFB5#16) State.reset)
      (fun s => !s.st.brightnessV && recordsOf s =
        [ { kind := .report, cond := 0#8, start := 0, flen := 12, payload := [0x57#8, 0x00#8, 0x02#8, 0x01#8, 0x4B#8] } ])
      = true := by decide +kernel
theorem test_wCmdCct :
    nextWith (exec (.wCmdCct 0x28#8 0xD440#16) State.reset)
      (fun s => recordsOf s =
        [ { kind := .report, cond := 0#8, start := 0, flen := 12, payload := [0x57#8, 0x00#8, 0x03#8, 0x01#8, 0x28#8] } ])
      = true := by decide +kernel
/- V4.20. -/
theorem test_wQry :
    nextWith (exec .wQry State.reset)
      (fun s => recordsOf s =
        [ { kind := .report, cond := 0x10#8, start := 0, flen := 12, payload := [0x53#8, 0x00#8, 0x00#8, 0x01#8, 0x00#8] } ])
      = true := by decide +kernel
/- V4.6 (bad magic, right checksum: still applied), V4.7 (wrong prefix). -/
theorem test_wFrame_bad_magic :
    nextWith (exec (.wFrame [0x4C#8, 0x55#8, 0x07#8, 0x00#8, 0x20#8, 0x02#8, 0x00#8, 0x01#8, 0xF5#8, 0x19#8]) State.reset)
      (fun s => s.st.on && s.st.onV && recordsOf s =
        [ { kind := .report, cond := 0x02#8, start := 0, flen := 10, payload := [0x02#8, 0x00#8, 0x01#8] } ])
      = true := by decide +kernel
theorem test_wFrame_bad_prefix :
    nextWith (exec (.wFrame [0x4C#8, 0x54#8, 0x07#8, 0x00#8, 0x21#8, 0x02#8, 0x00#8, 0x01#8, 0x3B#8, 0xCC#8]) State.reset)
      (fun s => recordsOf s =
        [ { kind := .report, cond := 0x10#8, start := 0, flen := 10, payload := [0x02#8, 0x00#8, 0x01#8] } ])
      = true := by decide +kernel
/- V5.3, V5.18, V5.7 and V5.9, V5.12, V5.13, V5.14. -/
theorem test_rptUpdPwr :
    nextWith (exec (.rptUpdPwr 0xFF#8) litState) (·.st = { litState.st with on := false }) = true := by decide
theorem test_rptUpdBrt :
    nextWith (exec (.rptUpdBrt 0x0A#8) litState) (·.st = { litState.st with brightness := 10#8 }) = true := by decide
theorem test_rptUpdCct :
    nextWith (exec (.rptUpdCct 0x28#8) State.reset)
      (fun s => !s.st.onV && s.st.tempCodeV && s.mired = some 250) = true := by decide +kernel
theorem test_rptUpdCct_zero :
    nextWith (exec (.rptUpdCct 0x00#8) litState) (fun s => s.st.tempCodeV && s.mired = none) = true := by decide +kernel
theorem test_rptSnap :
    nextWith (exec (.rptSnap 0x02#8 0x00#8 0x4B#8 0x32#8) State.reset)
      (·.st = { litState.st with on := false }) = true := by decide
theorem test_rptUpdOther :
    nextWith (exec (.rptUpdOther 0x07#8 0x05#8) litState)
      (fun s => s.st = litState.st && s.ports.res = some (.conds 0x20#8)) = true := by decide
theorem test_rptOther :
    nextWith (exec (.rptOther 0x09#8) litState)
      (fun s => s.st = litState.st && s.ports.res = some (.conds 0x40#8)) = true := by decide
/- V5.16: ShortReport, code 8. -/
theorem test_step_short_report :
    nextWith (step { litState with report := some [0x03#8] })
      (fun s => s.st = litState.st && s.ports.res = some (.conds 0x80#8) && s.report = none) = true := by decide
/- 20_memory.md R30: one byte too many. -/
theorem test_dspApply_payload_too_long :
    refusedWith (exec (.dspApply (0x02#8 :: 0x00#8 :: 0x01#8 :: List.replicate 249 0x00#8) 0#8) State.reset)
      .payloadTooLong = true := by decide +kernel
/- 70_reset_and_hazards.md R148; 30_encoding.md R63. -/
theorem test_overlap_refused : refusedWith (exec .crcClr busyState) .overlappingOperation = true := by decide
theorem test_step_reserved :
    refusedWith (step { State.reset with pending := [.operation [0x04#8]] }) (.reservedOperation 0x04#8) = true := by
  decide
/- Program 1, step 2, from the host's request. -/
theorem test_step_operation :
    nextWith (step { State.reset with pending := [.operation [0x01#8, 0x4C#8]] })
      (fun s => s.crc = 0x8948#16 && s.pending = []) = true := by decide +kernel

/-! ### Witnesses: concrete states and operands that meet the hypotheses of the statements -/

theorem witness_CrcClrClearsTheRegister :
    (withCrc 0x8948#16).busy = false ∧ ∃ t, exec .crcClr (withCrc 0x8948#16) = .next t := ⟨rfl, _, rfl⟩
theorem witness_CrcUpdTakesOneByteStep : (withCrc 0xFFFF#16).busy = false := rfl
theorem witness_CrcRdReturnsTheRegisterHighByteFirst :
    (withCrc 0x8948#16).busy = false
    ∧ (∃ t u, exec .crcClr (withCrc 0x8948#16) = .next t ∧ exec .crcRd t = .next u)
    ∧ (∃ u, exec .crcRd State.reset = .next u)
    ∧ (∃ u, (withCrc 0x385B#16).crc = 0x385B#16 ∧ exec .crcRd (withCrc 0x385B#16) = .next u) :=
  ⟨rfl, ⟨_, _, rfl, rfl⟩, ⟨_, rfl⟩, ⟨_, rfl, rfl⟩⟩
theorem witness_CrcSumIsTheChecksumOfItsOperand : litState.busy = false := rfl
theorem witness_StreamingEqualsWholeSequence : (withCrc 0xFFFF#16).busy = false := rfl
/- The least and the greatest length byte of a unit with a checksum. -/
theorem witness_ResidueOfACheckedSequenceIsZero :
    ([0x4C#8, 0x54#8, 0x02#8, 0x8A#8, 0xF5#8] : List Byte).length = 3 + 2
      ∧ 2 = (([0x4C#8, 0x54#8, 0x02#8, 0x8A#8, 0xF5#8] : List Byte).getD 2 0#8).toNat
    ∧ (0x4C#8 :: 0x54#8 :: 0xFF#8 :: List.replicate 255 0x00#8 : List Byte).length = 3 + 255
      ∧ 2 ≤ 255 ∧ 255 = ((0x4C#8 :: 0x54#8 :: 0xFF#8 :: List.replicate 255 0x00#8 : List Byte).getD 2 0#8).toNat := by
  decide +kernel
theorem witness_ChecksumOrderSensitivityIsNoLaw : ([0x01#8] : List Byte) = [0x01#8] := rfl
theorem witness_OneChangedByteChangesTheCrc : (0x00#8 : Byte) ≠ 0x80#8 := by decide
theorem witness_CrcIsLinearForEqualLengths : ([0x01#8, 0x02#8] : List Byte).length = [0xFF#8, 0x00#8].length := rfl
theorem witness_CrcRegisterIsTheHostsAlone :
    ∃ t, exec .encQry (withCrc 0x1021#16) = .next t ∧ Instr.encQry ≠ .crcClr ∧ (∀ b, Instr.encQry ≠ .crcUpd b)
      ∧ Instr.encQry ≠ .crcRd := ⟨_, rfl, by decide, by simp, by decide⟩
/- The ends of the signed byte, and the first values past them. -/
theorem witness_EncCmdWritesTheCommandPacket :
    State.reset.busy = false
    ∧ (-128 ≤ (-128#16 : Half).toInt ∧ (-128#16 : Half).toInt ≤ 127)
    ∧ (-128 ≤ (127#16 : Half).toInt ∧ (127#16 : Half).toInt ≤ 127)
    ∧ (-129#16 : Half).toInt < -128 ∧ 127 < (128#16 : Half).toInt := by decide
theorem witness_WrapperEncodesTestTheirDomain :
    State.reset.busy = false ∧ State.reset.params.strictDomain = true ∧ looseState.params.strictDomain = false
    ∧ ((0#16 : Half).toInt = 0 ∧ (1#16 : Half).toInt = 1 ∧ 1 < (2#16 : Half).toInt ∧ (-1#16 : Half).toInt < 0)
    ∧ ((100#16 : Half).toInt = 100 ∧ 100 < (101#16 : Half).toInt)
    ∧ ((32#16 : Half).toInt = 32 ∧ (56#16 : Half).toInt = 56 ∧ (31#16 : Half).toInt < 32 ∧ 56 < (57#16 : Half).toInt) := by
  decide
theorem witness_EncQryEmitsTheConstantPacket : State.reset.busy = false := rfl
theorem witness_EncodedPacketFieldsReadBack :
    -128 ≤ (127#16 : Half).toInt ∧ (127#16 : Half).toInt ≤ 127
    ∧ ∃ t p, exec (.encCmd 0xFF#8 127#16) State.reset = .next t ∧ t.ports.tx = some p :=
  ⟨by decide, by decide, _, _, rfl, rfl⟩
theorem witness_EncodesArePure :
    Sys2Proof.Claims.isEncode (.encBrt 101#16) = true ∧ (withCrc 0x1021#16).busy = false ∧ litState.busy = false
    ∧ (withCrc 0x1021#16).params = litState.params ∧ ∃ t, exec (.encBrt 101#16) litState = .next t :=
  ⟨rfl, rfl, rfl, rfl, _, rfl⟩
/- One and two bytes; three and 257 of a unit that needs more. -/
theorem witness_CutOffUnitsAreTruncated :
    ([0x4C#8] : List Byte) ≠ [] ∧ ([0x4C#8, 0x54#8] : List Byte).length < 3
    ∧ ([0x4C#8, 0x54#8, 0x01#8] : List Byte).length < 3 + (([0x4C#8, 0x54#8, 0x01#8] : List Byte).getD 2 0#8).toNat
    ∧ 3 ≤ ([0x4C#8, 0x54#8, 0x01#8] : List Byte).length
    ∧ (0x00#8 :: 0x00#8 :: 0xFF#8 :: List.replicate 254 0x00#8 : List Byte).length
        < 3 + ((0x00#8 :: 0x00#8 :: 0xFF#8 :: List.replicate 254 0x00#8 : List Byte).getD 2 0#8).toNat := by
  decide +kernel
/- V4.13, V4.14, and a length byte of 2 with a wrong checksum. -/
theorem witness_UnitsWithoutAMatchingChecksumAreDropped :
    (3 ≤ ([0x4C#8, 0x54#8, 0x00#8] : List Byte).length
      ∧ ([0x4C#8, 0x54#8, 0x00#8] : List Byte).length = 3 + (([0x4C#8, 0x54#8, 0x00#8] : List Byte).getD 2 0#8).toNat)
    ∧ (([0x4C#8, 0x54#8, 0x01#8, 0xAA#8] : List Byte).length
        = 3 + (([0x4C#8, 0x54#8, 0x01#8, 0xAA#8] : List Byte).getD 2 0#8).toNat
      ∧ ([0x4C#8, 0x54#8, 0x01#8, 0xAA#8] : List Byte).length < 5)
    ∧ (5 ≤ ([0x4C#8, 0x54#8, 0x02#8, 0x8A#8, 0xF4#8] : List Byte).length
      ∧ ([0x4C#8, 0x54#8, 0x02#8, 0x8A#8, 0xF4#8] : List Byte).length
        = 3 + (([0x4C#8, 0x54#8, 0x02#8, 0x8A#8, 0xF4#8] : List Byte).getD 2 0#8).toNat
      ∧ ([0x4C#8, 0x54#8, 0x02#8, 0x8A#8, 0xF4#8] : List Byte).drop 3
        ≠ checksum (([0x4C#8, 0x54#8, 0x02#8, 0x8A#8, 0xF4#8] : List Byte).take 3)) := by decide +kernel
theorem witness_CheckedUnitsAreReportedAndApplied :
    ([] : List Byte).length ≤ 253 ∧ (List.replicate 253 (0x20#8 : Byte)).length ≤ 253 := by decide +kernel
theorem witness_CommandUnitsAreReportedAndChangeNothing :
    (0x385C#16 : Half) ≠ crc16 (commandHeader 0x00#8 0x01#8) := by decide +kernel
theorem witness_SentPacketsDecodeAsEchoes :
    (∃ t p w, exec (.encCmd 0x02#8 75#16) State.reset = .next t ∧ t.ports.tx = some p
      ∧ exec (.decBuf p) litState = .next w)
    ∧ (∃ t p w, exec .encQry State.reset = .next t ∧ t.ports.tx = some p ∧ exec (.decBuf p) litState = .next w) :=
  ⟨⟨_, _, _, rfl, rfl, rfl⟩, ⟨_, _, _, rfl, rfl, rfl⟩⟩
/- Any length where NMAX is left open, and a buffer of exactly NMAX bytes. -/
theorem witness_DecBufConsumesTheWholeBuffer :
    State.reset.busy = false ∧ accepts State.reset.params f1.length = true
    ∧ narrowState.busy = false ∧ accepts narrowState.params 1 = true ∧ accepts narrowState.params 2 = false := by decide
theorem witness_RecordConditionSetsAreExactlyTheEight :
    (∃ t e, exec (.decBuf [0x4C#8]) State.reset = .next t ∧ t.ports.records[0]? = some e)
    ∧ (Kind.truncated, note (only .headerMismatch) .truncatedFrame) ∈ permittedTags :=
  ⟨⟨_, _, rfl, rfl⟩, by decide⟩
theorem witness_RecordKindFollowsItsConditions :
    ∃ t e, exec (.decBuf [0x4C#8]) State.reset = .next t ∧ t.ports.records[0]? = some e ∧ e.record.kind = .truncated :=
  ⟨_, _, rfl, rfl, rfl⟩
/- An empty payload and one of 251 bytes. -/
theorem witness_ConcatenatedFramesDecodeInOrder :
    (∀ p ∈ ([[], List.replicate 251 (0x02#8 : Byte)] : List (List Byte)), p.length ≤ 251) ∧ State.reset.busy = false
    ∧ accepts State.reset.params ([[], List.replicate 251 (0x02#8 : Byte)].flatMap validFrame).length = true := by
  refine ⟨by decide +kernel, rfl, rfl⟩
/- The first byte, and the last byte (V4.4). -/
theorem witness_ADamagedFrameIsDroppedAlone :
    (∀ q ∈ ([[0x02#8, 0x00#8, 0x01#8]] ++ [0x02#8, 0x02#8, 0x4B#8] :: [[0x02#8, 0x03#8, 0x28#8]] : List (List Byte)),
      q.length ≤ 251)
    ∧ (0 < (validFrame [0x02#8, 0x02#8, 0x4B#8]).length ∧ 0 ≠ 2
      ∧ (validFrame [0x02#8, 0x02#8, 0x4B#8])[0]? ≠ some 0x4D#8)
    ∧ (9 < (validFrame [0x02#8, 0x02#8, 0x4B#8]).length ∧ 9 ≠ 2
      ∧ (validFrame [0x02#8, 0x02#8, 0x4B#8])[9]? ≠ some 0x95#8)
    ∧ State.reset.busy = false
    ∧ accepts State.reset.params
        ([[0x02#8, 0x00#8, 0x01#8]].flatMap validFrame ++ (validFrame [0x02#8, 0x02#8, 0x4B#8]).set 9 0x95#8
          ++ [[0x02#8, 0x03#8, 0x28#8]].flatMap validFrame).length = true := by decide +kernel
theorem witness_NothingIsCarriedOverBetweenBuffers :
    ([0x02#8, 0x00#8, 0x01#8] : List Byte).length ≤ 251 ∧ 1 < (validFrame [0x02#8, 0x00#8, 0x01#8]).length
    ∧ 9 < (validFrame [0x02#8, 0x00#8, 0x01#8]).length
    ∧ State.reset.busy = false ∧ accepts State.reset.params 9 = true
    ∧ (withCrc 0x1021#16).busy = false ∧ State.reset.params = (withCrc 0x1021#16).params
    ∧ State.reset.st = (withCrc 0x1021#16).st ∧ ∃ t, exec (.decBuf f3) State.reset = .next t :=
  ⟨by decide, by decide, by decide, rfl, rfl, rfl, rfl, rfl, _, rfl⟩
theorem witness_DecBufIsItsFrameSteps :
    litState.busy = false ∧ litState.pending = [] ∧ accepts litState.params f3.length = true := ⟨rfl, rfl, rfl⟩
theorem witness_UpdateUnitsWriteTheirOwnField : litState.params.hasDsp = true := rfl
theorem witness_SnapshotWritesAllThreeFields :
    litState.params.hasDsp = true ∧ ∃ n, exec (.rptSnap 0x02#8 0x00#8 0x4B#8 0x00#8) litState = .next n := ⟨rfl, _, rfl⟩
theorem witness_UnrecognisedReportsChangeNothing :
    litState.params.hasDsp = true ∧ ((0x01#8 : Byte) ≠ 0x00#8 ∧ (0x01#8 : Byte) ≠ 0x02#8 ∧ (0x01#8 : Byte) ≠ 0x03#8)
    ∧ ((0x00#8 : Byte) ≠ 0x02#8 ∧ (0x04#8 : Byte) ≠ 0x03#8)
    ∧ (0x04#8 :: List.replicate 250 0x00#8 : List Byte).length ≤ 251 := by decide +kernel
theorem witness_DspApplyRunsTheReportUnit :
    gatedState.busy = false ∧ gatedState.params.hasDsp = true ∧ only .unrecognizedPrefix &&& gatedState.params.gateMask = 0#8
    ∧ decodeIn .report [0x02#8, 0x00#8, 0x01#8] = .ok (.rptUpdPwr 0x01#8) := by decide
theorem witness_GatedShortAndLongPayloads :
    gatedState.busy = false ∧ gatedState.params.hasDsp = true
    ∧ only .headerMismatch &&& gatedState.params.gateMask ≠ 0#8 ∧ (0#8 : CondSet) &&& gatedState.params.gateMask = 0#8
    ∧ ([0x00#8] : List Byte).length + 1 < 3 ∧ ([0x01#8, 0xAA#8, 0x4B#8] : List Byte).length + 1 < 5
    ∧ (List.replicate 251 (0x02#8 : Byte)).length ≤ 251 ∧ (List.replicate 248 (0x00#8 : Byte)).length + 3 ≤ 251
    ∧ (List.replicate 246 (0x00#8 : Byte)).length + 5 ≤ 251 := by decide +kernel
theorem witness_StRdReturnsValidBitAndRegister :
    litState.busy = false ∧ litState.params.hasDsp = true ∧ 3 ≤ (0x03#8 : Byte).toNat ∧ 3 ≤ (0xFF#8 : Byte).toNat
    ∧ (true, ReadData.code 75#8) = (litState.st.brightnessV, .code litState.st.brightness)
    ∧ (false, ReadData.flag false) = (State.reset.st.onV, .flag State.reset.st.on) := by decide
theorem witness_MiredIsTheExactQuotient :
    litState.params.hasDsp = true ∧ litState.mired = some 200 ∧ 32 ≤ litState.st.tempCode.toInt
    ∧ litState.st.tempCode.toInt ≤ 56 ∧ State.reset.mired = none := by decide +kernel
theorem witness_DeviceStateIsOwnedByReports :
    (∃ t, exec .crcClr litState = .next t ∧ litState.st.onV = true ∧ litState.st.brightnessV = true
      ∧ litState.st.tempCodeV = true)
    ∧ Instr.crcClr.space = .op
    ∧ (∃ t, exec (.wFrame [0x4C#8]) litState = .next t ∧ (Instr.wFrame [0x4C#8]).space = .wire
      ∧ ∀ e, t.ports.records.getLast? = some e → e.record.kind ≠ .report) := by
  refine ⟨⟨_, rfl, rfl, rfl, rfl⟩, rfl, _, rfl, rfl, ?_⟩
  intro e h
  cases (Option.some.inj h)
  decide
theorem witness_NotingAConditionAddsItsBit : 0 < 8 ∧ 7 < 8 := by decide
theorem witness_ResetClearsTheInstance :
    resetRequested.busy = true ∧ resetRequested.pending = .reset :: [.operation [0x00#8]] := ⟨rfl, rfl⟩
theorem witness_StepKeepsTheInvariant : Inv State.reset ∧ ∃ t, step State.reset = .next t :=
  ⟨⟨by decide, rfl, by simp [State.reset], by simp [State.reset]⟩, _, rfl⟩
theorem witness_ParametersNeverChange : ∃ t, step resetRequested = .next t := ⟨_, rfl⟩
theorem witness_RxBufferIsConstantDuringDecode :
    (∃ t, exec .crcClr litState = .next t) ∧ (∀ b, Instr.crcClr ≠ .decBuf b)
    ∧ busyState.cursor < busyState.rx.length ∧ (∀ rest, busyState.pending ≠ .reset :: rest)
    ∧ ∃ t, step busyState = .next t :=
  ⟨⟨_, rfl⟩, by simp, by decide, by simp [busyState, State.reset], _, rfl⟩
theorem witness_EveryInstructionCompletesWhenIdle :
    narrowState.busy = false ∧ narrowState.params.hasDsp = true
    ∧ (∀ buf, Instr.decBuf [0x4C#8] = .decBuf buf → accepts narrowState.params buf.length = true)
    ∧ (∀ p dc, Instr.dspApply (List.replicate 251 0x02#8) 0#8 = .dspApply p dc → p.length ≤ 251) := by
  refine ⟨rfl, rfl, ?_, ?_⟩
  · intro buf h
    cases h
    rfl
  · intro p dc h
    injection h with h
    rw [← h, List.length_replicate]
theorem witness_WhereInstructionsAreRefused :
    (Instr.crcClr.space = .op ∧ busyState.busy = true)
    ∧ (narrowState.busy = false ∧ narrowState.params.nmax = some 1 ∧ 1 < ([0x4C#8, 0x54#8] : List Byte).length)
    ∧ (bareState.busy = false ∧ bareState.params.hasDsp = false ∧ (Instr.rptUpdPwr 0x01#8).space = .report)
    ∧ (let s : State := { bareState with rx := [0x00#8] }
       s.busy = true ∧ s.params.hasDsp = false)
    ∧ (State.reset.busy = false ∧ State.reset.params.hasDsp = true
      ∧ 251 < (List.replicate 252 (0x02#8 : Byte)).length)
    ∧ (let s : State := { State.reset with report := some (List.replicate 252 0x02#8) }
       s.pending = [] ∧ s.report = some (List.replicate 252 0x02#8)) := by decide +kernel
theorem witness_InstancesShareNothing :
    let other : State := { litState with device := 1 }
    System.wf [State.reset, other]
    ∧ ∃ sys' s', ([State.reset, other] : System)[1]? = some other
      ∧ System.stepAt [State.reset, other] 1 = .next sys' ∧ step other = .next s' :=
  ⟨by decide, _, _, rfl, rfl, rfl⟩
theorem witness_ARunIsItsOperationsInIssueOrder :
    (∀ i ∈ [Instr.crcClr, .encPwr 1#16, .decBuf f1], i.space = .op) ∧ State.reset.busy = false
    ∧ State.reset.pending = [] ∧ ∃ t, runAll [Instr.crcClr, .encPwr 1#16, .decBuf f1] State.reset = .next t :=
  ⟨by decide, rfl, rfl, _, rfl⟩
theorem witness_DecodeOfEncodeIsTheInstruction :
    (Instr.wFrame f1).WellFormed ∧ (Instr.wCmd 0x05#8 0x09#8 0x52A3#16).WellFormed ∧ (Instr.crcSum f1).WellFormed := by
  decide
theorem witness_DecodedInstructionsAreWellFormed :
    decodeIn .wire (f1 ++ f2) = .ok (.wFrame f1) ∧ decodeIn .op [0x14#8] = .ok .encQry
    ∧ decodeIn .report [0x02#8, 0x02#8, 0x4B#8, 0x99#8] = .ok (.rptUpdBrt 0x4B#8) := by decide
theorem witness_StepRunsTheDecodedInstruction :
    (let s : State := { State.reset with pending := [.operation [0x14#8]] }
     s.busy = false ∧ s.pending = .operation [0x14#8] :: [] ∧ decodeIn .op [0x14#8] = .ok .encQry)
    ∧ ((∀ rest, busyState.pending ≠ .reset :: rest) ∧ busyState.report = none
      ∧ busyState.cursor < busyState.rx.length
      ∧ decodeIn .wire (busyState.rx.drop busyState.cursor) = .ok (.wFrame [0x00#8]))
    ∧ (let s : State := { litState with report := some [0x09#8] }
       (∀ rest, s.pending ≠ .reset :: rest) ∧ s.report = some [0x09#8]
       ∧ decodeIn .report [0x09#8] = .ok (.rptOther 0x09#8)) := by
  refine ⟨⟨rfl, rfl, rfl⟩, ⟨by simp [busyState, State.reset], rfl, by decide, rfl⟩, ?_⟩
  exact ⟨by simp [litState, State.reset], rfl, rfl⟩
theorem witness_ReservedOperationCodesAreRefused :
    (0x04#8 : Byte) ∉ [0x00#8, 0x01#8, 0x02#8, 0x03#8, 0x10#8, 0x11#8, 0x12#8, 0x13#8, 0x14#8, 0x20#8, 0x30#8, 0x31#8]
    ∧ (0xFF#8 : Byte) ∉ [0x00#8, 0x01#8, 0x02#8, 0x03#8, 0x10#8, 0x11#8, 0x12#8, 0x13#8, 0x14#8, 0x20#8, 0x30#8, 0x31#8]
    ∧ State.reset.busy = false := by decide

end Sys2Proof.Tests
end

section
/-! PROOFS. The statements about the Checksum Engine's laws (40_crc.md R74, R75, R76): first how a
byte step cancels a remainder, then what a unit's checksum test asks, then how a run of CRC.UPDs
leaves the register. -/

namespace Sys2Proof.Proofs

open Sys2Proof Sys2Proof.Machine

/-! ### Rounds and byte steps (R68) -/

theorem crcRound_eq_xor (c : Half) : crcRound c = (c <<< 1) ^^^ (if c.msb then Config.crcPoly else 0#16) := by
  unfold crcRound
  split <;> simp

/-- The generator's constant term is 1: the bit shifted out comes back at the bottom. -/
theorem getLsbD_zero_crcRound (c : Half) : (crcRound c).getLsbD 0 = c.msb := by
  rw [crcRound_eq_xor]
  cases c.msb <;> simp [Config.crcPoly]

theorem crcRound_injective : Function.Injective crcRound := by
  intro c d h
  have hmsb : c.msb = d.msb := by rw [← getLsbD_zero_crcRound, h, getLsbD_zero_crcRound]
  have hshift : c <<< 1 = d <<< 1 := by
    rw [crcRound_eq_xor, crcRound_eq_xor, hmsb] at h
    exact (BitVec.xor_left_inj _).1 h
  ext i hi
  by_cases htop : i = 15
  · subst htop
    simpa [BitVec.msb_eq_getLsbD_last] using hmsb
  · have hbit : (c <<< 1)[i + 1] = (d <<< 1)[i + 1] := by simp only [hshift]
    simpa using hbit

theorem crcRounds_injective (n : Nat) : Function.Injective (crcRounds n) := by
  induction n with
  | zero => exact fun _ _ h => h
  | succ n ih => exact ih.comp crcRound_injective

/-- While no 1 reaches the top, rounds only shift. -/
theorem crcRounds_eq_shiftLeft (n : Nat) (c : Half) (h : c.toNat * 2 ^ n < 2 ^ 16) :
    crcRounds n c = c <<< n := by
  induction n generalizing c with
  | zero => simp [crcRounds]
  | succ n ih =>
    have hroom : c.toNat * 2 * 2 ^ n < 2 ^ 16 := by rwa [Nat.pow_succ', ← Nat.mul_assoc] at h
    have hlow : c.toNat * 2 < 2 ^ 16 := lt_of_le_of_lt (Nat.le_mul_of_pos_right _ (Nat.two_pow_pos n)) hroom
    have hmsb : c.msb = false := by
      rw [BitVec.msb_eq_decide, decide_eq_false_iff_not]
      omega
    have hround : crcRound c = c <<< 1 := by simp [crcRound, hmsb]
    have hdouble : (c <<< 1).toNat = c.toNat * 2 := by
      rw [BitVec.toNat_shiftLeft, Nat.shiftLeft_eq, Nat.pow_one, Nat.mod_eq_of_lt hlow]
    calc crcRounds (n + 1) c = crcRounds n (c <<< 1) := by rw [crcRounds, hround]
      _ = (c <<< 1) <<< n := ih _ (by rwa [hdouble])
      _ = c <<< (n + 1) := by rw [← BitVec.shiftLeft_add, Nat.add_comm]

theorem ofBe16_eq_xor (a b : Byte) : ofBe16 a b = (b.setWidth 16 : Half) ^^^ (a.setWidth 16 <<< 8) := by
  ext i hi
  rw [ofBe16, BitVec.getElem_append (x := a) (y := b)]
  split <;> rename_i h
  · simp [h, BitVec.getLsbD_eq_getElem]
  · have hlow : b.getLsbD i = false := BitVec.getLsbD_of_ge _ _ (by omega)
    have hhigh : a.getLsbD (i - 8) = a[i - 8] := BitVec.getLsbD_eq_getElem (by omega)
    simp [h, hlow, hhigh]

/-- Feeding the high byte of a remainder clears it and moves the low byte up, and no other remainder
gives that result. -/
theorem crcStep_eq_ofBe16_zero_iff (c : Half) (a b : Byte) : crcStep c a = ofBe16 b 0#8 ↔ c = ofBe16 a b := by
  have hmoved : crcRounds 8 (b.setWidth 16) = ofBe16 b 0#8 := by
    rw [crcRounds_eq_shiftLeft _ _ (by simp; omega), ofBe16_eq_xor]
    simp
  rw [crcStep, ← hmoved, (crcRounds_injective 8).eq_iff, ofBe16_eq_xor]
  constructor
  · intro h
    simp [← h]
  · rintro rfl
    simp

/-! ### The residue (R75) -/

theorem eq_ofBe16_iff (c : Half) (a b : Byte) : c = ofBe16 a b ↔ [a, b] = be16 c := by
  constructor
  · rintro rfl
    rw [be16, hi_ofBe16, lo_ofBe16]
  · intro h
    obtain ⟨rfl, rfl⟩ : a = hi c ∧ b = lo c := by simpa [be16] using h
    exact (ofBe16_hi_lo c).symm

theorem crc16_append_eq_zero_iff (s t : List Byte) (h : t.length = 2) :
    crc16 (s ++ t) = 0x0000#16 ↔ t = checksum s := by
  obtain ⟨a, b, rfl⟩ := List.length_eq_two.1 h
  calc crc16 (s ++ [a, b]) = 0x0000#16
      ↔ crcStep (crcStep (crc16 s) a) b = ofBe16 0#8 0#8 := by rw [crc16, crcFrom_append]; rfl
    _ ↔ [a, b] = checksum s := by
      rw [crcStep_eq_ofBe16_zero_iff, crcStep_eq_ofBe16_zero_iff, eq_ofBe16_iff]; rfl

/-! ### The checksum test of the frame step (42_decoder.md R97) -/

/-- A whole unit goes on to the frame step's last tests. -/
theorem decFrame_whole {u : List Byte} {L : Nat} (hlen : u.length = 3 + L) (hbyte : L = (byteAt u 2).toNat) :
    (decFrame u 0).1 = wholeFrame u 0 L (noteIf (badMagic (memRead u 0 2)) noConditions .headerMismatch) := by
  unfold decFrame
  rw [if_neg (by omega)]
  simp only [Nat.zero_add, u8, ← hbyte, hlen, lt_self_iff_false, if_false]

theorem kind_wholeFrame_eq_report_iff {u : List Byte} {L : Nat} (cond : CondSet)
    (hlen : u.length = 3 + L) (hL : 2 ≤ L) :
    (wholeFrame u 0 L cond).kind = .report ↔ u.drop (1 + L) = checksum (u.take (1 + L)) := by
  have hsum : memRead (memRead u 3 L) (L - 2) 2 = u.drop (1 + L) := by
    rw [memRead, memRead, List.take_of_length_le (by simp; omega), List.take_of_length_le (by simp; omega),
      List.drop_drop, show 3 + (L - 2) = 1 + L by omega]
  have hsummed : memRead u 0 (3 + L - 2) = u.take (1 + L) := by
    rw [memRead, List.drop_zero, show 3 + L - 2 = 1 + L by omega]
  unfold wholeFrame
  simp only [Nat.zero_add, hsum, hsummed, if_neg (show ¬ L < 2 by omega)]
  split <;> rename_i h
  · simp [Ne.symm h]
  · simpa [reportRecord] using (not_not.1 h).symm

/-! ### Runs of CRC operations (R70 to R72) -/

theorem runAll_cons_of_next {i : Instr} {is : List Instr} {s t : State} (h : exec i s = .next t) :
    runAll (i :: is) s = runAll is t := by
  simp [runAll, h]

theorem exec_crcClr_of_idle {s : State} (h : s.busy = false) :
    exec .crcClr s = .next (State.deliver { s with crc := Config.crcInit } {}) := hostOp_idle h _

theorem exec_crcUpd_of_idle {s : State} (h : s.busy = false) (b : Byte) :
    exec (.crcUpd b) s = .next (State.deliver { s with crc := crcStep s.crc b } {}) := hostOp_idle h _

theorem exec_crcRd_of_idle {s : State} (h : s.busy = false) :
    exec .crcRd s = .next (s.deliver { res := some (sumOf s.crc) }) := hostOp_idle h _

/-- The register after a run of CRC.UPDs is the remainder after their bytes, and no operation is
in progress for what follows. -/
theorem runAll_map_crcUpd_append (l : List Byte) (is : List Instr) {s : State} (h : s.busy = false) :
    ∃ t, runAll (l.map .crcUpd ++ is) s = runAll is t ∧ t.busy = false ∧ t.crc = crcFrom s.crc l := by
  induction l generalizing s with
  | nil => exact ⟨s, rfl, h, rfl⟩
  | cons b l ih =>
    obtain ⟨t, hrun, hidle, hcrc⟩ := ih (s := State.deliver { s with crc := crcStep s.crc b } {}) h
    exact ⟨t, (runAll_cons_of_next (exec_crcUpd_of_idle h b)).trans hrun, hidle, hcrc⟩

/-- Updates and a read deliver the remainder of the register's value over the bytes. -/
theorem runAll_crcUpd_crcRd (l : List Byte) {s : State} (h : s.busy = false) :
    ∃ t, runAll (l.map .crcUpd ++ [.crcRd]) s = .next t ∧ t.ports.res = some (sumOf (crcFrom s.crc l)) := by
  obtain ⟨t, hrun, hidle, hcrc⟩ := runAll_map_crcUpd_append l [.crcRd] h
  exact ⟨_, hrun.trans (runAll_cons_of_next (exec_crcRd_of_idle hidle)), by rw [deliver_ports, hcrc]⟩

/-- Settles O6: a run of updates leaves `crcFrom` of its bytes in the register, by induction on the
bytes; a resumed run is the run over the concatenation. -/
theorem streamingEqualsWholeSequence : Obligations.StreamingEqualsWholeSequence := by
  unfold Obligations.StreamingEqualsWholeSequence
  refine ⟨fun l s h => ?_, fun l => runAll_crcUpd_crcRd l rfl, fun l m s h => ?_⟩
  · rw [runAll_cons_of_next (exec_crcClr_of_idle h)]
    exact runAll_crcUpd_crcRd l h
  · rw [runAll_cons_of_next (exec_crcClr_of_idle h), ← List.map_append]
    obtain ⟨t, hrun, -, hcrc⟩ := runAll_map_crcUpd_append (l ++ m) []
      (s := State.deliver { s with crc := Config.crcInit } {}) h
    exact ⟨t, by simpa [runAll] using hrun, hcrc⟩

/-- Settles O7: two bytes after `s` bring the remainder to zero exactly when they are its checksum,
which is what the frame step compares. -/
theorem residueOfACheckedSequenceIsZero : Obligations.ResidueOfACheckedSequenceIsZero := by
  unfold Obligations.ResidueOfACheckedSequenceIsZero
  refine ⟨fun s => (crc16_append_eq_zero_iff s _ (length_checksum s)).2 rfl, fun u L hlen hL hbyte => ?_⟩
  rw [decFrame_whole hlen hbyte, kind_wholeFrame_eq_report_iff _ hlen hL,
    ← crc16_append_eq_zero_iff _ _ (by rw [List.length_drop]; omega), List.take_append_drop]

/-! ### Order (R76) -/

theorem crc16_pair (a b : Byte) : crc16 [a, b] = crcStep (crcStep 0x0000#16 a) b := rfl

theorem crc16_one_two : crc16 [0x01#8, 0x02#8] = 0x1373#16 := by
  have hfirst : crcStep 0x0000#16 0x01#8 = 0x1021#16 := by decide
  rw [crc16_pair, hfirst]
  decide

theorem crc16_two_one : crc16 [0x02#8, 0x01#8] = 0x7643#16 := by
  have hfirst : crcStep 0x0000#16 0x02#8 = 0x2042#16 := by decide
  rw [crc16_pair, hfirst]
  decide

/-- Settles O8: the example's two values step by step, and the two families of pairs whose orders agree
because they are the same sequence. -/
theorem checksumOrderSensitivityIsNoLaw : Obligations.ChecksumOrderSensitivityIsNoLaw := by
  unfold Obligations.ChecksumOrderSensitivityIsNoLaw
  refine ⟨crc16_one_two, crc16_two_one, rfl, ?_⟩
  rintro b _ rfl
  rfl

end Sys2Proof.Proofs
end

section
/-! PROOFS. The statement about the fields of a command packet (41_encoder.md R85): first the byte that
stands for an operand, then the packet as its header and the header's checksum, then when an ENC.CMD
answers and with what. -/

namespace Sys2Proof.Proofs

open Sys2Proof Sys2Proof.Machine

/-! ### The value byte (30_encoding.md R55) -/

theorem fitsByte_iff {v : Half} : fitsByte v = true ↔ -128 ≤ v.toInt ∧ v.toInt ≤ 127 := by
  simp [fitsByte, inDomain, signedValue]

/-- In the signed 8-bit range the low byte has the operand's value. -/
theorem toInt_byteOf {v : Half} (hlow : -128 ≤ v.toInt) (hhigh : v.toInt ≤ 127) : (byteOf v).toInt = v.toInt := by
  calc (byteOf v).toInt = (v.toNat : Int).bmod (2 ^ 8) := BitVec.toInt_setWidth v
    _ = v.toInt.bmod (2 ^ 8) := by rw [BitVec.toInt_eq_toNat_bmod, Int.bmod_bmod_of_dvd (by decide)]
    _ = v.toInt := Int.bmod_eq_of_le (by omega) (by omega)

/-! ### The packet (R79) -/

theorem commandPacket_eq_header_append_checksum (sub value : Byte) :
    commandPacket sub value = commandHeader sub value ++ checksum (commandHeader sub value) := rfl

theorem exec_encCmd (sub : Byte) (v : Half) (s : State) :
    exec (.encCmd sub v) s = hostOp s (.next (encodeCommand sub v s)) := rfl

theorem encodeCommand_of_fitsByte {v : Half} (hv : fitsByte v = true) (sub : Byte) (s : State) :
    encodeCommand sub v s = sendPacket (commandPacket sub (byteOf v)) s := if_pos hv

/-- An ENC.CMD that answers, with an operand that fits a byte, leaves the packet on TX. -/
theorem tx_of_exec_encCmd {sub : Byte} {v : Half} {s t : State} (hv : fitsByte v = true)
    (h : exec (.encCmd sub v) s = .next t) : t.ports.tx = some (commandPacket sub (byteOf v)) := by
  rw [exec_encCmd, hostOp_eq_next, encodeCommand_of_fitsByte hv] at h
  obtain ⟨-, hnext⟩ := h
  cases hnext
  rw [sendPacket_ports]

/-- Settles O15: the packet is its header followed by the header's checksum, and the fields are the
header's. -/
theorem encodedPacketFieldsReadBack : Obligations.EncodedPacketFieldsReadBack := by
  unfold Obligations.EncodedPacketFieldsReadBack
  intro sub v s t p hlow hhigh hexec htx
  have hp : p = commandHeader sub (byteOf v) ++ checksum (commandHeader sub (byteOf v)) := by
    rw [← commandPacket_eq_header_append_checksum]
    exact Option.some.inj (htx.symm.trans (tx_of_exec_encCmd (fitsByte_iff.2 ⟨hlow, hhigh⟩) hexec))
  subst hp
  exact ⟨rfl, rfl, ⟨byteOf v, rfl, toInt_byteOf hlow hhigh⟩, rfl, rfl, rfl⟩

end Sys2Proof.Proofs
end

section
/-! PROOFS. The statement about the condition sets of a record (42_decoder.md R105): first the tags a
frame step can give, then which records a DEC.BUF delivers, then a buffer for each of the eight. -/

namespace Sys2Proof.Proofs

open Sys2Proof Sys2Proof.Machine

/-! ### The tags of a frame step (R93) -/

/-- What R105 speaks of: a record's kind and its conditions. -/
def tagOf (r : Record) : Kind × CondSet := (r.kind, r.cond)

theorem tagOf_reportRecord_mem (bad : Bool) (start flen : Nat) (sem : List Byte) :
    tagOf (reportRecord (noteIf bad noConditions .headerMismatch) start flen sem) ∈ permittedTags := by
  have hreport (b : Bool) : (Kind.report,
      noteIf b (noteIf bad noConditions .headerMismatch) .unrecognizedPrefix) ∈ permittedTags := by
    cases bad <;> cases b <;> decide
  exact hreport (badPrefix sem)

theorem tagOf_wholeFrame_mem (buf : List Byte) (cursor L : Nat) (bad : Bool) :
    tagOf (wholeFrame buf cursor L (noteIf bad noConditions .headerMismatch)) ∈ permittedTags := by
  have hdropped : (Kind.dropped, note (noteIf bad noConditions .headerMismatch) .checksumMismatch)
      ∈ permittedTags := by cases bad <;> decide
  unfold wholeFrame
  dsimp only
  split_ifs
  · exact hdropped
  · exact hdropped
  · exact tagOf_reportRecord_mem bad _ _ _

theorem tagOf_decFrame_mem (buf : List Byte) (cursor : Nat) :
    tagOf (decFrame buf cursor).1 ∈ permittedTags := by
  have hshort : (Kind.truncated, only .truncatedFrame) ∈ permittedTags := by decide
  have htruncated (bad : Bool) : (Kind.truncated, note (noteIf bad noConditions .headerMismatch) .truncatedFrame)
      ∈ permittedTags := by cases bad <;> decide
  unfold decFrame
  dsimp only
  split_ifs
  · exact hshort
  · exact htruncated _
  · exact tagOf_wholeFrame_mem buf cursor _ _

/-! ### The records of a DEC.BUF (R91) -/

theorem exec_decBuf_eq_next {buf : List Byte} {s t : State} : exec (.decBuf buf) s = .next t ↔
    s.busy = false ∧ accepts s.params buf.length = true ∧ decodeLoop buf.length (startDecode buf s) = t := by
  change execDecBuf buf s = .next t ↔ _
  rw [execDecBuf, hostOp_eq_next]
  split <;> simp_all

theorem frameStep_records (s : State) :
    ∃ d, (frameStep s).ports.records = s.ports.records ++ [⟨(decFrame s.rx s.cursor).1, d⟩] :=
  (emit_records _ _ s).imp fun _ h => h.1

/-- The loop delivers what was delivered before it, and after that only records of frame steps on RX
inside the buffer. -/
theorem decodeLoop_records (n : Nat) (s : State) : ∃ es : List Emitted,
    (decodeLoop n s).ports.records = s.ports.records ++ es
      ∧ ∀ e ∈ es, ∃ cursor < s.rx.length, e.record = (decFrame s.rx cursor).1 := by
  induction n generalizing s with
  | zero => exact ⟨[], by simp [decodeLoop], by simp⟩
  | succ n ih =>
    unfold decodeLoop
    split
    case isTrue hcursor =>
      obtain ⟨d, hfirst⟩ := frameStep_records s
      obtain ⟨es, hrest, hes⟩ := ih (frameStep s)
      refine ⟨⟨(decFrame s.rx s.cursor).1, d⟩ :: es, by rw [hrest, hfirst, List.append_assoc]; rfl, ?_⟩
      rw [List.forall_mem_cons]
      exact ⟨⟨s.cursor, hcursor, rfl⟩, by simpa [frameStep] using hes⟩
    case isFalse => exact ⟨[], by simp, by simp⟩

/-- Every record of a DEC.BUF is a frame step's. -/
theorem record_eq_decFrame_of_exec_decBuf {buf : List Byte} {s t : State} (h : exec (.decBuf buf) s = .next t)
    {e : Emitted} (he : e ∈ t.ports.records) : ∃ cursor < buf.length, e.record = (decFrame buf cursor).1 := by
  obtain ⟨-, -, rfl⟩ := exec_decBuf_eq_next.1 h
  obtain ⟨es, hrecords, hes⟩ := decodeLoop_records buf.length (startDecode buf s)
  rw [hrecords, startDecode_ports] at he
  exact hes e he

/-- The frame step at the front of a buffer is among them. -/
theorem exec_decBuf_delivers_front {buf : List Byte} {s : State} (hne : buf ≠ []) (hidle : s.busy = false)
    (hfits : accepts s.params buf.length = true) :
    ∃ t, exec (.decBuf buf) s = .next t ∧ ∃ e ∈ t.ports.records, e.record = (decFrame buf 0).1 := by
  refine ⟨_, exec_decBuf_eq_next.2 ⟨hidle, hfits, rfl⟩, ?_⟩
  obtain ⟨n, hn⟩ := Nat.exists_eq_add_one.2 (List.length_pos_iff.2 hne)
  obtain ⟨d, hfirst⟩ := frameStep_records (startDecode buf s)
  obtain ⟨es, hrest, -⟩ := decodeLoop_records n (frameStep (startDecode buf s))
  refine ⟨⟨(decFrame buf 0).1, d⟩, ?_, rfl⟩
  rw [hn, decodeLoop, if_pos (by simpa using List.length_pos_iff.2 hne), hrest, hfirst]
  simp

/-! ### A buffer for each of the eight -/

/-- One unit for each of R105's sets, in its order: with the right and with a wrong magic, two REPORTs
with the sub-header and two without, two units without room for a checksum, and two cut off. -/
def buffersOfPermittedTags : List (List Byte) :=
  [ checkedUnit 0x4C#8 0x54#8 [0x00#8, 0x20#8],
    checkedUnit 0x00#8 0x00#8 [0x00#8, 0x20#8],
    checkedUnit 0x4C#8 0x54#8 [],
    checkedUnit 0x00#8 0x00#8 [],
    [0x4C#8, 0x54#8, 0x00#8],
    [0x00#8, 0x00#8, 0x00#8],
    [0x4C#8, 0x54#8],
    [0x00#8, 0x00#8, 0x01#8] ]

theorem map_tagOf_decFrame_buffersOfPermittedTags :
    buffersOfPermittedTags.map (fun buf => tagOf (decFrame buf 0).1) = permittedTags := by decide +kernel

/-- Settles O24: every record is a frame step's, whose branches give the eight tags and no other; and
each of the eight is the front record of a buffer written out above. -/
theorem recordConditionSetsAreExactlyTheEight : Obligations.RecordConditionSetsAreExactlyTheEight := by
  unfold Obligations.RecordConditionSetsAreExactlyTheEight
  refine ⟨fun buf s t h e he => ?_, fun k c h => ?_⟩
  · obtain ⟨cursor, -, hrecord⟩ := record_eq_decFrame_of_exec_decBuf h he
    rw [hrecord]
    exact tagOf_decFrame_mem buf cursor
  · rw [← map_tagOf_decFrame_buffersOfPermittedTags, List.mem_map] at h
    obtain ⟨buf, hbuf, htag⟩ := h
    have hne : buf ≠ [] := by
      rintro rfl
      exact absurd hbuf (by decide)
    obtain ⟨t, hexec, e, he, hrecord⟩ := exec_decBuf_delivers_front hne (s := State.reset) rfl rfl
    obtain ⟨hkind, hcond⟩ := Prod.mk.inj htag
    exact ⟨buf, t, hexec, e, he, by rw [hrecord, hkind], by rw [hrecord, hcond]⟩

end Sys2Proof.Proofs
end

section
/-! PROOFS. The statements about decoding (30_encoding.md): first each operand layout read back and
inverted, then the units of the wire and the report units, then the three spaces together. -/

namespace Sys2Proof.Proofs

open Sys2Proof Sys2Proof.Machine

/-! ### Operand layouts (R58, log 3) -/

theorem decodeSeq_eq_some {args s : List Byte} (h : decodeSeq args = some s) : args = encodeSeq s := by
  cases args with
  | nil => simp [decodeSeq] at h
  | cons n l =>
    simp only [decodeSeq, Option.ite_none_right_eq_some, Option.some.injEq] at h
    obtain ⟨rfl, rfl⟩ := h
    rfl

theorem decodeNone_eq_ok {code : Byte} {i j : Instr} {args : List Byte} (h : decodeNone code i args = .ok j) :
    args = [] ∧ j = i := by
  cases args with
  | nil => exact ⟨rfl, (Except.ok.inj h).symm⟩
  | cons b l => cases h

theorem decodeByte_eq_ok {code : Byte} {f : Byte → Except DecodeError Instr} {j : Instr} {args : List Byte}
    (h : decodeByte code f args = .ok j) : ∃ b, args = [b] ∧ f b = .ok j := by
  match args, h with
  | [b], h => exact ⟨b, rfl, h⟩

theorem decodeValue_eq_ok {code : Byte} {f : Half → Instr} {j : Instr} {args : List Byte}
    (h : decodeValue code f args = .ok j) : ∃ v, args = be16 v ∧ j = f v := by
  match args, h with
  | [a, b], h => exact ⟨ofBe16 a b, by rw [be16, hi_ofBe16, lo_ofBe16], (Except.ok.inj h).symm⟩

theorem decodeSubValue_eq_ok {code : Byte} {f : Byte → Half → Instr} {j : Instr} {args : List Byte}
    (h : decodeSubValue code f args = .ok j) : ∃ sub v, args = sub :: be16 v ∧ j = f sub v := by
  match args, h with
  | [sub, a, b], h => exact ⟨sub, ofBe16 a b, by rw [be16, hi_ofBe16, lo_ofBe16], (Except.ok.inj h).symm⟩

theorem decodeSeqOperand_eq_ok {code : Byte} {f : List Byte → Instr} {j : Instr} {args : List Byte}
    (h : decodeSeqOperand code f args = .ok j) : ∃ s, args = encodeSeq s ∧ j = f s := by
  unfold decodeSeqOperand at h
  split at h
  · rename_i s hs
    exact ⟨s, decodeSeq_eq_some hs, (Except.ok.inj h).symm⟩
  · cases h

theorem decodeSeqCond_eq_ok {code : Byte} {f : List Byte → CondSet → Instr} {j : Instr} {args : List Byte}
    (h : decodeSeqCond code f args = .ok j) : ∃ s dc, args = encodeSeq s ++ [dc] ∧ j = f s dc := by
  unfold decodeSeqCond at h
  split at h
  · rename_i dc s hdc hs
    refine ⟨s, dc, ?_, (Except.ok.inj h).symm⟩
    rw [← decodeSeq_eq_some hs, List.dropLast_append_getLast? dc hdc]
  · cases h

theorem decodeSelector_eq_ok {b : Byte} {j : Instr} (h : decodeSelector b = .ok j) :
    ∃ sel, b = selectorByte sel ∧ j = .stRd sel := by
  unfold decodeSelector at h
  split_ifs at h with h0 h1 h2
  · exact ⟨.on, h0, (Except.ok.inj h).symm⟩
  · exact ⟨.brightness, h1, (Except.ok.inj h).symm⟩
  · exact ⟨.tempCode, h2, (Except.ok.inj h).symm⟩

theorem decodeValue_be16 (code : Byte) (f : Half → Instr) (v : Half) :
    decodeValue code f (be16 v) = .ok (f v) := by
  rw [be16, decodeValue, ofBe16_hi_lo]

theorem decodeSubValue_be16 (code : Byte) (f : Byte → Half → Instr) (sub : Byte) (v : Half) :
    decodeSubValue code f (sub :: be16 v) = .ok (f sub v) := by
  rw [be16, decodeSubValue, ofBe16_hi_lo]

theorem decodeSeqOperand_encodeSeq (code : Byte) (f : List Byte → Instr) (s : List Byte) :
    decodeSeqOperand code f (encodeSeq s) = .ok (f s) := by
  rw [decodeSeqOperand, decodeSeq_encodeSeq]

theorem decodeSeqCond_encodeSeq_append (code : Byte) (f : List Byte → CondSet → Instr) (s : List Byte)
    (dc : CondSet) : decodeSeqCond code f (encodeSeq s ++ [dc]) = .ok (f s dc) := by
  rw [decodeSeqCond, List.getLast?_concat, List.dropLast_concat, decodeSeq_encodeSeq]

theorem decodeSelector_selectorByte (sel : Selector) : decodeSelector (selectorByte sel) = .ok (.stRd sel) := by
  cases sel <;> rfl

/-! ### Operations -/

theorem decodeOp_encode {i : Instr} (h : i.space = .op) : decodeOp (encode i) = .ok i := by
  cases i with
  | crcClr => rfl
  | crcUpd b => rfl
  | crcRd => rfl
  | crcSum s => exact decodeSeqOperand_encodeSeq 0x03#8 _ s
  | encCmd sub v => exact decodeSubValue_be16 0x10#8 _ sub v
  | encPwr v => exact decodeValue_be16 0x11#8 _ v
  | encBrt v => exact decodeValue_be16 0x12#8 _ v
  | encCct v => exact decodeValue_be16 0x13#8 _ v
  | encQry => rfl
  | decBuf buf => exact decodeSeqOperand_encodeSeq 0x20#8 _ buf
  | dspApply p dc => exact decodeSeqCond_encodeSeq_append 0x30#8 _ p dc
  | stRd sel => exact decodeSelector_selectorByte sel
  | _ => cases h

/-- The twelve codes of R58. -/
def operationCodes : List Byte :=
  [0x00#8, 0x01#8, 0x02#8, 0x03#8, 0x10#8, 0x11#8, 0x12#8, 0x13#8, 0x14#8, 0x20#8, 0x30#8, 0x31#8]

theorem decodeOp_reserved {code : Byte} (h : code ∉ operationCodes) (args : List Byte) :
    decodeOp (code :: args) = .error (.reservedOperation code) := by
  simp only [operationCodes, List.mem_cons, List.not_mem_nil, or_false, not_or] at h
  obtain ⟨h0, h1, h2, h3, h4, h5, h6, h7, h8, h9, h10, h11⟩ := h
  rw [decodeOp, decodeOperation, if_neg h0, if_neg h1, if_neg h2, if_neg h3, if_neg h4, if_neg h5, if_neg h6,
    if_neg h7, if_neg h8, if_neg h9, if_neg h10, if_neg h11]

theorem code_mem_of_decodeOp_eq_ok {code : Byte} {args : List Byte} {i : Instr}
    (h : decodeOp (code :: args) = .ok i) : code ∈ operationCodes := by
  by_contra hreserved
  rw [decodeOp_reserved hreserved] at h
  cases h

/-- What decodes from a transaction is an operation, and the transaction is its encoding. -/
theorem decodeOp_eq_ok {bs : List Byte} {i : Instr} (h : decodeOp bs = .ok i) :
    i.space = .op ∧ encode i = bs := by
  match bs, h with
  | code :: args, h =>
    have hcode := code_mem_of_decodeOp_eq_ok h
    simp only [operationCodes, List.mem_cons, List.not_mem_nil, or_false] at hcode
    obtain rfl | rfl | rfl | rfl | rfl | rfl | rfl | rfl | rfl | rfl | rfl | rfl := hcode
    · obtain ⟨rfl, rfl⟩ := decodeNone_eq_ok (code := 0x00#8) h
      exact ⟨rfl, rfl⟩
    · obtain ⟨b, rfl, hb⟩ := decodeByte_eq_ok (code := 0x01#8) h
      cases hb
      exact ⟨rfl, rfl⟩
    · obtain ⟨rfl, rfl⟩ := decodeNone_eq_ok (code := 0x02#8) h
      exact ⟨rfl, rfl⟩
    · obtain ⟨s, rfl, rfl⟩ := decodeSeqOperand_eq_ok (code := 0x03#8) h
      exact ⟨rfl, rfl⟩
    · obtain ⟨sub, v, rfl, rfl⟩ := decodeSubValue_eq_ok (code := 0x10#8) h
      exact ⟨rfl, rfl⟩
    · obtain ⟨v, rfl, rfl⟩ := decodeValue_eq_ok (code := 0x11#8) h
      exact ⟨rfl, rfl⟩
    · obtain ⟨v, rfl, rfl⟩ := decodeValue_eq_ok (code := 0x12#8) h
      exact ⟨rfl, rfl⟩
    · obtain ⟨v, rfl, rfl⟩ := decodeValue_eq_ok (code := 0x13#8) h
      exact ⟨rfl, rfl⟩
    · obtain ⟨rfl, rfl⟩ := decodeNone_eq_ok (code := 0x14#8) h
      exact ⟨rfl, rfl⟩
    · obtain ⟨buf, rfl, rfl⟩ := decodeSeqOperand_eq_ok (code := 0x20#8) h
      exact ⟨rfl, rfl⟩
    · obtain ⟨p, dc, rfl, rfl⟩ := decodeSeqCond_eq_ok (code := 0x30#8) h
      exact ⟨rfl, rfl⟩
    · obtain ⟨b, rfl, hb⟩ := decodeByte_eq_ok (code := 0x31#8) h
      obtain ⟨sel, rfl, rfl⟩ := decodeSelector_eq_ok hb
      exact ⟨rfl, rfl⟩

/-- The table gives an operation's fields no constraint. -/
theorem wellFormed_of_space_op {i : Instr} (h : i.space = .op) : i.WellFormed := by
  cases i <;> cases h <;> rfl

/-! ### Wire units (R46 to R51, R59) -/

theorem isNamedCode_eq_false {b : Byte} :
    WellFormed.isNamedCode b = false ↔ b ≠ 0x00#8 ∧ b ≠ 0x02#8 ∧ b ≠ 0x03#8 := by
  simp [WellFormed.isNamedCode, and_assoc]

theorem wellFormed_wFrame_iff {u : List Byte} : (Instr.wFrame u).WellFormed ↔
    WellFormed.isOneUnit u = true ∧ isCommandUnit u = false ∧ u ≠ queryUnit := by
  have hquery : WellFormed.isQueryShape u = false ↔ u ≠ queryUnit := by
    simp [WellFormed.isQueryShape, queryUnit]
  rw [← hquery]
  change (WellFormed.isOneUnit u && !isCommandUnit u && !WellFormed.isQueryShape u) = true ↔ _
  simp [and_assoc]

/-- One unit is all the unit at its own front. -/
theorem unitLength_of_isOneUnit {u : List Byte} (h : WellFormed.isOneUnit u = true) : unitLength u = u.length := by
  simp only [WellFormed.isOneUnit, Bool.and_eq_true, Bool.or_eq_true, decide_eq_true_eq] at h
  obtain ⟨-, hfits⟩ := h
  unfold unitLength
  split
  · rfl
  · exact min_eq_left (hfits.resolve_left ‹_›)

theorem decodeWire_of_isOneUnit {u : List Byte} (h : WellFormed.isOneUnit u = true) :
    decodeWire u = .ok (classifyUnit u) := by
  have hne : u ≠ [] := by
    rintro rfl
    cases h
  rw [decodeWire, if_neg hne, unitLength_of_isOneUnit h, List.take_length]

theorem classifyUnit_commandUnit (sub v : Byte) (c : Half) :
    classifyUnit (commandUnit sub v c) = classifyCommand sub v c := by
  rw [classifyUnit, if_pos (isCommandUnit_commandUnit sub v c)]
  change classifyCommand sub v (ofBe16 (hi c) (lo c)) = _
  rw [ofBe16_hi_lo]

theorem classifyCommand_of_not_named {sub : Byte} (h : WellFormed.isNamedCode sub = false) (v : Byte) (c : Half) :
    classifyCommand sub v c = .wCmd sub v c := by
  obtain ⟨h0, h2, h3⟩ := isNamedCode_eq_false.1 h
  rw [classifyCommand, if_neg h0, if_neg h2, if_neg h3]

theorem classifyUnit_of_wellFormed_wFrame {u : List Byte} (h : (Instr.wFrame u).WellFormed) :
    classifyUnit u = .wFrame u := by
  obtain ⟨-, hcommand, hquery⟩ := wellFormed_wFrame_iff.1 h
  rw [classifyUnit, hcommand, if_neg Bool.false_ne_true, if_neg hquery]

theorem decodeWire_commandUnit (sub v : Byte) (c : Half) :
    decodeWire (commandUnit sub v c) = .ok (classifyCommand sub v c) := by
  rw [decodeWire_of_isOneUnit rfl, classifyUnit_commandUnit]

theorem decodeWire_encode {i : Instr} (hwf : i.WellFormed) (h : i.space = .wire) :
    decodeWire (encode i) = .ok i := by
  cases i with
  | wCmd sub v c =>
    have hsub : WellFormed.isNamedCode sub = false := by simpa [Instr.WellFormed, Instr.wellFormed] using hwf
    rw [encode, decodeWire_commandUnit, classifyCommand_of_not_named hsub]
  | wCmdPwr v c => exact decodeWire_commandUnit 0x00#8 v c
  | wCmdBrt v c => exact decodeWire_commandUnit 0x02#8 v c
  | wCmdCct v c => exact decodeWire_commandUnit 0x03#8 v c
  | wQry => rfl
  | wFrame u =>
    rw [encode, decodeWire_of_isOneUnit (wellFormed_wFrame_iff.1 hwf).1, classifyUnit_of_wellFormed_wFrame hwf]
  | _ => cases h

theorem classifyCommand_spec (sub v : Byte) (c : Half) :
    (classifyCommand sub v c).WellFormed ∧ (classifyCommand sub v c).space = .wire
      ∧ encode (classifyCommand sub v c) = commandUnit sub v c := by
  unfold classifyCommand
  split_ifs with h0 h2 h3
  · exact ⟨rfl, rfl, by rw [h0]; rfl⟩
  · exact ⟨rfl, rfl, by rw [h2]; rfl⟩
  · exact ⟨rfl, rfl, by rw [h3]; rfl⟩
  · have hsub : WellFormed.isNamedCode sub = false := isNamedCode_eq_false.2 ⟨h0, h2, h3⟩
    exact ⟨by simp [Instr.WellFormed, Instr.wellFormed, hsub], rfl, rfl⟩

theorem classifyUnit_spec {u : List Byte} (h : WellFormed.isOneUnit u = true) :
    (classifyUnit u).WellFormed ∧ (classifyUnit u).space = .wire ∧ encode (classifyUnit u) = u := by
  unfold classifyUnit
  split
  case isTrue hcommand =>
    obtain ⟨hwf, hspace, hencode⟩ :=
      classifyCommand_spec (byteAt u 7) (byteAt u 9) (ofBe16 (byteAt u 10) (byteAt u 11))
    exact ⟨hwf, hspace, hencode.trans (commandUnit_of_isCommandUnit hcommand).symm⟩
  case isFalse hcommand =>
    split
    case isTrue hquery => exact ⟨rfl, rfl, hquery.symm⟩
    case isFalse hquery =>
      exact ⟨wellFormed_wFrame_iff.2 ⟨h, by simpa using hcommand, hquery⟩, rfl, rfl⟩

/-- What decodes from a wire is a unit, well-formed, and its encoding is the unit's bytes. -/
theorem decodeWire_eq_ok {bs : List Byte} {i : Instr} (h : decodeWire bs = .ok i) :
    i.WellFormed ∧ i.space = .wire ∧ encode i = bs.take (unitLength bs) := by
  unfold decodeWire at h
  split at h
  · cases h
  · cases h
    exact classifyUnit_spec (isOneUnit_take_unitLength ‹_›)

/-! ### Report units (R52 to R54) -/

theorem classifyUpdate_of_not_named {k : Byte} (h : WellFormed.isNamedCode k = false) (v : Byte) :
    classifyUpdate k v = .rptUpdOther k v := by
  obtain ⟨h0, h2, h3⟩ := isNamedCode_eq_false.1 h
  rw [classifyUpdate, if_neg h0, if_neg h2, if_neg h3]

theorem decodeReport_update (k v : Byte) (more : List Byte) :
    decodeReport (0x02#8 :: k :: v :: more) = .ok (classifyUpdate k v) := by
  rw [decodeReport, if_pos rfl, if_neg (by simp)]
  rfl

theorem decodeReport_other {g : Byte} (h2 : g ≠ 0x02#8) (h3 : g ≠ 0x03#8) (more : List Byte) :
    decodeReport (g :: more) = .ok (.rptOther g) := by
  rw [decodeReport, if_neg h2, if_neg h3]

theorem decodePayload_of_decodeReport {p : List Byte} {i : Instr} (hlen : p.length ≤ 251)
    (h : decodeReport p = .ok i) : decodePayload p = .ok i := decodePayload_eq_ok.2 ⟨hlen, h⟩

theorem decodePayload_encode {i : Instr} (hwf : i.WellFormed) (h : i.space = .report) :
    decodePayload (encode i) = .ok i := by
  cases i with
  | rptUpdPwr v => rfl
  | rptUpdBrt v => rfl
  | rptUpdCct v => rfl
  | rptSnap p u b t => rfl
  | rptUpdOther k v =>
    have hk : WellFormed.isNamedCode k = false := by simpa [Instr.WellFormed, Instr.wellFormed] using hwf
    refine decodePayload_of_decodeReport (by simp [encode]) ?_
    rw [encode, decodeReport_update, classifyUpdate_of_not_named hk]
  | rptOther g =>
    obtain ⟨h2, h3⟩ : g ≠ 0x02#8 ∧ g ≠ 0x03#8 := by simpa [Instr.WellFormed, Instr.wellFormed] using hwf
    exact decodePayload_of_decodeReport (by simp [encode]) (decodeReport_other h2 h3 [])
  | _ => cases h

theorem classifyUpdate_spec (k v : Byte) :
    (classifyUpdate k v).WellFormed ∧ (classifyUpdate k v).space = .report
      ∧ encode (classifyUpdate k v) = [0x02#8, k, v] := by
  unfold classifyUpdate
  split_ifs with h0 h2 h3
  · exact ⟨rfl, rfl, by rw [h0]; rfl⟩
  · exact ⟨rfl, rfl, by rw [h2]; rfl⟩
  · exact ⟨rfl, rfl, by rw [h3]; rfl⟩
  · have hk : WellFormed.isNamedCode k = false := isNamedCode_eq_false.2 ⟨h0, h2, h3⟩
    exact ⟨by simp [Instr.WellFormed, Instr.wellFormed, hk], rfl, rfl⟩

/-- The three forms of a payload that holds a report unit. -/
theorem decodeReport_eq_ok {p : List Byte} {i : Instr} (h : decodeReport p = .ok i) :
    (∃ k v more, p = 0x02#8 :: k :: v :: more ∧ i = classifyUpdate k v)
    ∨ (∃ w u b t more, p = 0x03#8 :: w :: u :: b :: t :: more ∧ i = .rptSnap w u b t)
    ∨ (∃ g more, p = g :: more ∧ g ≠ 0x02#8 ∧ g ≠ 0x03#8 ∧ i = .rptOther g) := by
  match p, h with
  | g :: rest, h =>
    rw [decodeReport] at h
    split_ifs at h with h2 hshort h3 hshort
    · obtain _ | ⟨k, _ | ⟨v, more⟩⟩ := rest
      · simp at hshort
      · simp at hshort
      · exact .inl ⟨k, v, more, by rw [h2], (Except.ok.inj h).symm⟩
    · obtain _ | ⟨w, _ | ⟨u, _ | ⟨b, _ | ⟨t, more⟩⟩⟩⟩ := rest
      · simp at hshort
      · simp at hshort
      · simp at hshort
      · simp at hshort
      · exact .inr (.inl ⟨w, u, b, t, more, by rw [h3], (Except.ok.inj h).symm⟩)
    · exact .inr (.inr ⟨g, rest, rfl, h2, h3, (Except.ok.inj h).symm⟩)

/-- What decodes from a payload is a report unit, well-formed, and its encoding is at the front. -/
theorem decodePayload_eq_ok_spec {p : List Byte} {i : Instr} (h : decodePayload p = .ok i) :
    i.WellFormed ∧ i.space = .report ∧ ∃ rest, p = encode i ++ rest := by
  obtain ⟨-, hreport⟩ := decodePayload_eq_ok.1 h
  obtain ⟨k, v, more, rfl, rfl⟩ | ⟨w, u, b, t, more, rfl, rfl⟩ | ⟨g, more, rfl, h2, h3, rfl⟩ :=
    decodeReport_eq_ok hreport
  · obtain ⟨hwf, hspace, hencode⟩ := classifyUpdate_spec k v
    exact ⟨hwf, hspace, more, by rw [hencode]; rfl⟩
  · exact ⟨rfl, rfl, more, rfl⟩
  · exact ⟨by simp [Instr.WellFormed, Instr.wellFormed, h2, h3], rfl, more, rfl⟩

/-! ### The statements -/

/-- Settles O49, space by space: the operand layouts read back what they write; a command unit is told
apart by its subcommand, any other unit by not having a packet's shape; a report by category and key. -/
theorem decodeOfEncodeIsTheInstruction : Obligations.DecodeOfEncodeIsTheInstruction := by
  unfold Obligations.DecodeOfEncodeIsTheInstruction
  intro i hwf
  cases hspace : i.space with
  | op => exact decodeOp_encode hspace
  | wire => exact decodeWire_encode hwf hspace
  | report => exact decodePayload_encode hwf hspace

/-- Settles O50 by the inversion of each space's decoder. -/
theorem decodedInstructionsAreWellFormed : Obligations.DecodedInstructionsAreWellFormed := by
  unfold Obligations.DecodedInstructionsAreWellFormed
  intro sp bs i h
  cases sp with
  | op =>
    obtain ⟨hspace, hencode⟩ := decodeOp_eq_ok h
    exact ⟨wellFormed_of_space_op hspace, hspace, fun _ => hencode, nofun, nofun⟩
  | wire =>
    obtain ⟨hwf, hspace, hencode⟩ := decodeWire_eq_ok h
    exact ⟨hwf, hspace, nofun, fun _ => hencode, nofun⟩
  | report =>
    obtain ⟨hwf, hspace, hfront⟩ := decodePayload_eq_ok_spec h
    exact ⟨hwf, hspace, nofun, nofun, fun _ => hfront⟩

/-- Settles O53: each line is an evaluation of the decoder. -/
theorem writtenBytesDecode : Obligations.WrittenBytesDecode :=
  ⟨rfl, rfl, rfl, rfl, rfl, rfl, rfl, rfl⟩

end Sys2Proof.Proofs
end

section
/-! PROOFS. What each instruction does, said once: a meaning for each family of instructions, the case
split along the families, and everything that can have happened when an instruction answers. -/

namespace Sys2Proof.Proofs

open Sys2Proof Sys2Proof.Machine

/-! ### Guards around an effect that answers -/

theorem hostOp_next_eq_next {s t u : State} : hostOp s (.next u) = .next t ↔ s.busy = false ∧ t = u := by
  rw [hostOp_eq_next, Host.Outcome.next.injEq, eq_comm (a := u)]

theorem whenDsp_next_eq_next {s t u : State} : whenDsp s (.next u) = .next t ↔ s.params.hasDsp = true ∧ t = u := by
  rw [whenDsp_eq_next, Host.Outcome.next.injEq, eq_comm (a := u)]

/-! ### The encode operations (41_encoder.md) -/

/-- What ENC.CMD delivers. -/
def commandPorts (sub : Byte) (v : Half) : Ports :=
  if fitsByte v then { res := some .ok, tx := some (commandPacket sub (byteOf v)) }
  else { res := some (.invalidValue v) }

/-- What a wrapper encode delivers. -/
def wrapperPorts (strict : Bool) (sub : Byte) (low high : Int) (v : Half) : Ports :=
  if strict && !inDomain low high v then { res := some (.invalidValue v) } else commandPorts sub v

/-- What an encode operation delivers: its operands and the build decide (R80). -/
def encodePorts (p : Params) : Instr → Ports
  | .encCmd sub v => commandPorts sub v
  | .encPwr v => wrapperPorts p.strictDomain Config.subPower 0 1 v
  | .encBrt v => wrapperPorts p.strictDomain Config.subBrightness 0 100 v
  | .encCct v => wrapperPorts p.strictDomain Config.subTempCode 32 56 v
  | .encQry => { res := some .ok, tx := some queryPacket }
  | _ => {}

theorem encodeCommand_eq_deliver (sub : Byte) (v : Half) (s : State) :
    encodeCommand sub v s = s.deliver (commandPorts sub v) := by
  unfold encodeCommand commandPorts
  split <;> rfl

theorem encodeWrapper_eq_deliver (sub : Byte) (low high : Int) (v : Half) (s : State) :
    encodeWrapper sub low high v s = s.deliver (wrapperPorts s.params.strictDomain sub low high v) := by
  unfold encodeWrapper wrapperPorts
  split
  · rfl
  · exact encodeCommand_eq_deliver sub v s

/-- The meaning of an encode operation: it delivers, and that is all. -/
theorem exec_of_isEncode {i : Instr} (h : Sys2Proof.Claims.isEncode i = true) (s : State) :
    exec i s = hostOp s (.next (s.deliver (encodePorts s.params i))) := by
  cases i with
  | encCmd sub v => exact congrArg (fun t => hostOp s (.next t)) (encodeCommand_eq_deliver sub v s)
  | encPwr v => exact congrArg (fun t => hostOp s (.next t)) (encodeWrapper_eq_deliver _ 0 1 v s)
  | encBrt v => exact congrArg (fun t => hostOp s (.next t)) (encodeWrapper_eq_deliver _ 0 100 v s)
  | encCct v => exact congrArg (fun t => hostOp s (.next t)) (encodeWrapper_eq_deliver _ 32 56 v s)
  | encQry => rfl
  | _ => cases h

/-! ### The units -/

/-- The meaning of a wire unit: the frame step on its bytes. -/
theorem exec_of_space_wire {i : Instr} (h : i.space = .wire) (s : State) :
    exec i s = .next (unitStep (encode i) s) := by
  cases i <;> cases h <;> rfl

/-- What a report unit answers, and the Device State it leaves. -/
def reportAnswer (st : DeviceState) : Instr → CondSet × DeviceState
  | .rptUpdPwr v => (noConditions, st.writeOn v)
  | .rptUpdBrt v => (noConditions, st.writeBrightness v)
  | .rptUpdCct v => (noConditions, st.writeTempCode v)
  | .rptSnap p _ b t => (noConditions, st.writeSnapshot p b t)
  | .rptUpdOther k v => applyUpdate k v st
  | .rptOther _ => (only .unrecognizedCategory, st)
  | _ => (noConditions, st)

/-- The meaning of a report unit: its answer, in a build with the dispatcher. -/
theorem exec_of_space_report {i : Instr} (h : i.space = .report) (s : State) :
    exec i s = whenDsp s (.next (answer (reportAnswer s.st i) s)) := by
  cases i <;> cases h <;> rfl

/-! ### The other operations -/

theorem exec_decBuf (buf : List Byte) (s : State) :
    exec (.decBuf buf) s = hostOp s (if accepts s.params buf.length
      then .next (decodeLoop buf.length (startDecode buf s)) else .refused .bufferTooLong) := rfl

theorem exec_dspApply (p : List Byte) (dc : CondSet) (s : State) :
    exec (.dspApply p dc) s = hostOp s (whenDsp s (if fitsPayload p.length
      then .next (answer (dspApply s.params.gateMask p dc s.st) s) else .refused .payloadTooLong)) := rfl

/-- What ST.RD leaves: its delivery, and a draw where the register is not valid. -/
def readOut (sel : Selector) (s : State) : State :=
  if validBit s.st sel then s.deliver { res := some (.read true (valueRegister s.st sel)) }
  else State.deliver { s with draws := s.draws + 1 } { res := some (.read false (freeData s.device s.draws sel)) }

theorem exec_stRd (sel : Selector) (s : State) :
    exec (.stRd sel) s = hostOp s (whenDsp s (.next (readOut sel s))) := rfl

theorem exec_stRd_eq_next {sel : Selector} {s t : State} :
    exec (.stRd sel) s = .next t ↔ s.busy = false ∧ s.params.hasDsp = true ∧ t = readOut sel s := by
  rw [exec_stRd, hostOp_eq_next, whenDsp_next_eq_next]

/-- ST.RD changes nothing but the draws and its delivery on RES. -/
theorem readOut_eq (sel : Selector) (s : State) : ∃ data draws,
    readOut sel s = State.deliver { s with draws := draws } { res := some (.read (validBit s.st sel) data) }
      ∧ (validBit s.st sel = true → data = valueRegister s.st sel) := by
  unfold readOut
  split <;> rename_i h
  · exact ⟨valueRegister s.st sel, s.draws, by rw [h], fun _ => rfl⟩
  · rw [Bool.not_eq_true] at h
    exact ⟨freeData s.device s.draws sel, s.draws + 1, by rw [h], fun hvalid => by simp [h] at hvalid⟩

/-! ### The case split along the families -/

/-- The instructions by family: every operation of the Checksum Engine, the Decoder and the Dispatcher,
the encodes together, the wire units together, the report units together. -/
theorem familyCases {motive : Instr → Prop} (crcClr : motive .crcClr) (crcUpd : ∀ b, motive (.crcUpd b))
    (crcRd : motive .crcRd) (crcSum : ∀ l, motive (.crcSum l))
    (encode : ∀ i, Sys2Proof.Claims.isEncode i = true → motive i) (decBuf : ∀ buf, motive (.decBuf buf))
    (dspApply : ∀ p dc, motive (.dspApply p dc)) (stRd : ∀ sel, motive (.stRd sel))
    (wire : ∀ i, i.space = .wire → motive i) (report : ∀ i, i.space = .report → motive i) (i : Instr) :
    motive i :=
  match i with
  | .crcClr => crcClr
  | .crcUpd b => crcUpd b
  | .crcRd => crcRd
  | .crcSum l => crcSum l
  | .encCmd _ _ | .encPwr _ | .encBrt _ | .encCct _ | .encQry => encode _ rfl
  | .decBuf buf => decBuf buf
  | .dspApply p dc => dspApply p dc
  | .stRd sel => stRd sel
  | .wCmd _ _ _ | .wCmdPwr _ _ | .wCmdBrt _ _ | .wCmdCct _ _ | .wQry | .wFrame _ => wire _ rfl
  | .rptUpdPwr _ | .rptUpdBrt _ | .rptUpdCct _ | .rptSnap _ _ _ _ | .rptUpdOther _ _ | .rptOther _ =>
    report _ rfl

/-- Everything an instruction that answers a next state can have done. -/
inductive Answered (s : State) : Instr → State → Prop
  | crcClr : Answered s .crcClr (State.deliver { s with crc := Config.crcInit } {})
  | crcUpd (b : Byte) : Answered s (.crcUpd b) (State.deliver { s with crc := crcStep s.crc b } {})
  | crcRd : Answered s .crcRd (s.deliver { res := some (sumOf s.crc) })
  | crcSum (l : List Byte) : Answered s (.crcSum l) (s.deliver { res := some (sumOf (crc16 l)) })
  | encode (i : Instr) (h : Sys2Proof.Claims.isEncode i = true) : Answered s i (s.deliver (encodePorts s.params i))
  | decBuf (buf : List Byte) (h : accepts s.params buf.length = true) :
      Answered s (.decBuf buf) (decodeLoop buf.length (startDecode buf s))
  | dspApply (p : List Byte) (dc : CondSet) :
      Answered s (.dspApply p dc) (answer (dspApply s.params.gateMask p dc s.st) s)
  | stRd (sel : Selector) : Answered s (.stRd sel) (readOut sel s)
  | wire (i : Instr) (h : i.space = .wire) : Answered s i (unitStep (Sys2Proof.encode i) s)
  | report (i : Instr) (h : i.space = .report) : Answered s i (answer (reportAnswer s.st i) s)

theorem answered_of_exec {i : Instr} {s t : State} (h : exec i s = .next t) : Answered s i t := by
  induction i using familyCases with
  | crcClr =>
    obtain ⟨-, rfl⟩ := hostOp_next_eq_next.1 h
    exact .crcClr
  | crcUpd b =>
    obtain ⟨-, rfl⟩ := hostOp_next_eq_next.1 h
    exact .crcUpd b
  | crcRd =>
    obtain ⟨-, rfl⟩ := hostOp_next_eq_next.1 h
    exact .crcRd
  | crcSum l =>
    obtain ⟨-, rfl⟩ := hostOp_next_eq_next.1 h
    exact .crcSum l
  | encode i hi =>
    obtain ⟨-, rfl⟩ := hostOp_next_eq_next.1 (exec_of_isEncode hi s ▸ h)
    exact .encode i hi
  | decBuf buf =>
    obtain ⟨-, haccepts, rfl⟩ := exec_decBuf_eq_next.1 h
    exact .decBuf buf haccepts
  | dspApply p dc =>
    obtain ⟨-, -, -, rfl⟩ := execDspApply_eq_next.1 h
    exact .dspApply p dc
  | stRd sel =>
    obtain ⟨-, -, rfl⟩ := exec_stRd_eq_next.1 h
    exact .stRd sel
  | wire i hi =>
    rw [exec_of_space_wire hi] at h
    cases h
    exact .wire i hi
  | report i hi =>
    obtain ⟨-, rfl⟩ := whenDsp_next_eq_next.1 (exec_of_space_report hi s ▸ h)
    exact .report i hi

/-- Every operation is guarded as a host operation (70_reset_and_hazards.md R148). -/
theorem exec_of_space_op {i : Instr} (h : i.space = .op) (s : State) : ∃ o, exec i s = hostOp s o := by
  cases i <;> cases h <;> exact ⟨_, rfl⟩

end Sys2Proof.Proofs
end

section
/-! PROOFS. The statements about the CRC functions and operations (40_crc.md): what the operations do,
then that the byte step is linear and cancels nothing, then that it is the remainder by the generator. -/

namespace Sys2Proof.Proofs

open Sys2Proof Sys2Proof.Machine

/-! ### The operations (R70 to R73) -/

theorem eq_of_exec_crcClr {s t : State} (h : exec .crcClr s = .next t) :
    s.busy = false ∧ t = State.deliver { s with crc := Config.crcInit } {} := hostOp_next_eq_next.1 h

theorem res_of_exec_crcRd {s t : State} (h : exec .crcRd s = .next t) : t.ports.res = some (sumOf s.crc) := by
  obtain ⟨-, rfl⟩ := hostOp_next_eq_next.1 h
  rfl

/-- Settles O1: the operation is one update of the register, which a second one repeats. -/
theorem crcClrClearsTheRegister : Obligations.CrcClrClearsTheRegister := by
  unfold Obligations.CrcClrClearsTheRegister
  refine ⟨rfl, fun s h => exec_crcClr_of_idle h, fun s t h => ?_, rfl⟩
  obtain ⟨hidle, rfl⟩ := eq_of_exec_crcClr h
  exact exec_crcClr_of_idle hidle

theorem crcStep_zero_zero : crcStep 0x0000#16 0x00#8 = 0x0000#16 := by decide

/-- Settles O2: the operation is one byte step; the corner cases and examples are evaluated. -/
theorem crcUpdTakesOneByteStep : Obligations.CrcUpdTakesOneByteStep := by
  unfold Obligations.CrcUpdTakesOneByteStep
  refine ⟨fun b => rfl, fun b s h => exec_crcUpd_of_idle h b, crcStep_zero_zero, fun s => ?_,
    by decide, by decide, by decide⟩
  rw [crc16, crcFrom_cons, Config.crcInit, crcStep_zero_zero]
  rfl

theorem sumOf_crcInit : sumOf Config.crcInit = .sum 0x00#8 0x00#8 := by decide

/-- Settles O4: CRC.RD delivers the register's halves, whatever wrote it. -/
theorem crcRdReturnsTheRegisterHighByteFirst : Obligations.CrcRdReturnsTheRegisterHighByteFirst := by
  unfold Obligations.CrcRdReturnsTheRegisterHighByteFirst
  refine ⟨rfl, fun s h => exec_crcRd_of_idle h, fun s t u hclr hrd => ?_, fun u h => res_of_exec_crcRd h,
    fun s u hcrc h => ?_⟩
  · obtain ⟨-, rfl⟩ := eq_of_exec_crcClr hclr
    exact (res_of_exec_crcRd hrd).trans (congrArg some sumOf_crcInit)
  · rw [res_of_exec_crcRd h, hcrc]
    rfl

theorem crc16_replicate_zero (n : Nat) : crc16 (List.replicate n 0x00#8) = 0x0000#16 := by
  induction n with
  | zero => rfl
  | succ n ih =>
    rw [List.replicate_succ, crc16, crcFrom_cons, Config.crcInit, crcStep_zero_zero]
    exact ih

theorem crc16_qryHeader : crc16 Config.qryHeader = 0x9474#16 := by decide +kernel

/-- Settles O5: the operand reads back from its layout, the operation delivers its checksum, and zero
bytes keep the remainder zero, by induction on their number. -/
theorem crcSumIsTheChecksumOfItsOperand : Obligations.CrcSumIsTheChecksumOfItsOperand := by
  unfold Obligations.CrcSumIsTheChecksumOfItsOperand
  exact ⟨fun l => decodeSeqOperand_encodeSeq 0x03#8 .crcSum l, fun l s h => hostOp_idle h _,
    crc16_replicate_zero, crc16_qryHeader⟩

/-! ### Linearity (R78) -/

theorem crcRound_xor (c d : Half) : crcRound (c ^^^ d) = crcRound c ^^^ crcRound d := by
  have hpoly : (if (c ^^^ d).msb then Config.crcPoly else 0#16)
      = (if c.msb then Config.crcPoly else 0#16) ^^^ (if d.msb then Config.crcPoly else 0#16) := by
    rw [BitVec.msb_xor]
    cases c.msb <;> cases d.msb <;> simp
  simp only [crcRound_eq_xor, hpoly, BitVec.shiftLeft_xor_distrib]
  ac_rfl

theorem crcRounds_xor (n : Nat) (c d : Half) : crcRounds n (c ^^^ d) = crcRounds n c ^^^ crcRounds n d := by
  induction n generalizing c d with
  | zero => rfl
  | succ n ih => rw [crcRounds, crcRound_xor, ih]; rfl

theorem crcStep_xor (c d : Half) (a b : Byte) : crcStep (c ^^^ d) (a ^^^ b) = crcStep c a ^^^ crcStep d b := by
  have hfed : (c ^^^ d) ^^^ ((a ^^^ b).setWidth 16 <<< 8)
      = (c ^^^ (a.setWidth 16 <<< 8)) ^^^ (d ^^^ (b.setWidth 16 <<< 8)) := by
    rw [BitVec.setWidth_xor, BitVec.shiftLeft_xor_distrib]
    ac_rfl
  rw [crcStep, hfed, crcRounds_xor]
  rfl

theorem crcFrom_zipWith_xor {s t : List Byte} (h : s.length = t.length) (c d : Half) :
    crcFrom (c ^^^ d) (List.zipWith (· ^^^ ·) s t) = crcFrom c s ^^^ crcFrom d t := by
  induction s generalizing t c d with
  | nil =>
    obtain rfl := List.length_eq_zero_iff.1 h.symm
    rfl
  | cons a s ih =>
    obtain ⟨b, t, rfl⟩ := List.exists_cons_of_length_eq_add_one h.symm
    rw [List.zipWith_cons_cons, crcFrom_cons, crcStep_xor]
    exact ih (Nat.succ.inj h) _ _

/-- Settles O10: rounds and byte steps are linear, and so is their fold, by induction on the bytes. -/
theorem crcIsLinearForEqualLengths : Obligations.CrcIsLinearForEqualLengths := by
  unfold Obligations.CrcIsLinearForEqualLengths
  exact fun s t h => crcFrom_zipWith_xor h 0x0000#16 0x0000#16

/-! ### Error detection (R77) -/

theorem crcStep_injective_left (b : Byte) : Function.Injective (crcStep · b) :=
  (crcRounds_injective 8).comp fun _ _ h => (BitVec.xor_left_inj _).1 h

theorem crcStep_injective_right (c : Half) : Function.Injective (crcStep c) := by
  intro a b h
  have hshift : (a.setWidth 16 : Half) <<< 8 = b.setWidth 16 <<< 8 :=
    (BitVec.xor_right_inj _).1 (crcRounds_injective 8 h)
  ext i hi
  have hbit := congrArg (fun v : Half => v.getLsbD (i + 8)) hshift
  simpa [hi, show i + 8 < 16 by omega] using hbit

theorem crcFrom_injective (t : List Byte) : Function.Injective (crcFrom · t) := by
  induction t with
  | nil => exact fun _ _ h => h
  | cons b t ih => exact ih.comp (crcStep_injective_left b)

/-- Settles O9: the byte step separates bytes, and everything after it keeps remainders apart. -/
theorem oneChangedByteChangesTheCrc : Obligations.OneChangedByteChangesTheCrc := by
  unfold Obligations.OneChangedByteChangesTheCrc
  intro s t b b' hne h
  rw [crc16, crc16, crcFrom_append, crcFrom_append] at h
  exact hne (crcStep_injective_right _ (crcFrom_injective t h))

/-! ### The byte step as a remainder over GF(2) (R68) -/

section
open Polynomial Sys2Proof.Claims

theorem coeff_ite_X_pow (b : Bool) (i k : Nat) :
    (if b then X ^ i else 0 : (ZMod 2)[X]).coeff k = if k = i then (if b then 1 else 0) else 0 := by
  cases b <;> simp [coeff_X_pow]

theorem coeff_polyOf {n : Nat} (v : BitVec n) (k : Nat) :
    (polyOf v).coeff k = if v.getLsbD k then 1 else 0 := by
  rw [polyOf, finsetSum_coeff, Finset.sum_congr rfl fun i _ => coeff_ite_X_pow _ i k, Finset.sum_ite_eq]
  split
  · rfl
  · rename_i hk
    rw [BitVec.getLsbD_of_ge v k (by simpa using hk)]
    rfl

theorem degree_polyOf_lt {n : Nat} (v : BitVec n) : (polyOf v).degree < n := by
  rw [degree_lt_iff_coeff_zero]
  intro k hk
  rw [coeff_polyOf, BitVec.getLsbD_of_ge v k hk]
  rfl

/-- Xor is addition. -/
theorem polyOf_xor {n : Nat} (v w : BitVec n) : polyOf (v ^^^ w) = polyOf v + polyOf w := by
  ext k
  rw [coeff_add, coeff_polyOf, coeff_polyOf, coeff_polyOf, BitVec.getLsbD_xor]
  cases v.getLsbD k <;> cases w.getLsbD k <;> decide

/-- A byte fed to the register stands eight places higher. -/
theorem polyOf_setWidth_shiftLeft (b : Byte) : polyOf (b.setWidth 16 <<< 8 : Half) = polyOf b * X ^ 8 := by
  ext k
  rw [coeff_polyOf, coeff_mul_X_pow', coeff_polyOf, BitVec.getLsbD_shiftLeft]
  by_cases hlow : k < 8
  · simp [hlow]
  · by_cases hhigh : k < 16
    · simp [hlow, hhigh, show 8 ≤ k by omega, show k - 8 < 16 by omega]
    · simp [hhigh, show 8 ≤ k by omega, BitVec.getLsbD_of_ge b (k - 8) (by omega)]

/-- A shift of the register multiplies by `x` and loses what reaches `x^16`. -/
theorem polyOf_shiftLeft_one (c : Half) :
    polyOf (c <<< 1) + (if c.msb then X ^ 16 else 0) = polyOf c * X := by
  ext k
  rw [coeff_add, coeff_ite_X_pow, coeff_polyOf, BitVec.getLsbD_shiftLeft, BitVec.msb_eq_getLsbD_last]
  obtain _ | k := k
  · simp
  · rw [coeff_mul_X, coeff_polyOf]
    obtain hk | rfl | hk := lt_trichotomy k 15
    · simp [show k + 1 < 16 by omega, show k ≠ 15 by omega]
    · simp
    · simp [BitVec.getLsbD_of_ge c k (by omega), show k ≠ 15 by omega]

theorem polyOf_crcPoly : polyOf Config.crcPoly + X ^ 16 = generator := by
  have hpoly : polyOf Config.crcPoly = 1 + X ^ 5 + X ^ 12 := by
    simp [polyOf, Config.crcPoly, Finset.sum_range_succ]
  rw [hpoly, generator]
  ring

theorem generator_monic : generator.Monic := by
  unfold generator
  monicity!

theorem degree_generator : generator.degree = 16 := by
  unfold generator
  compute_degree!

/-- One round multiplies by `x`, up to a multiple of the generator. -/
theorem generator_dvd_crcRound (c : Half) : generator ∣ polyOf (crcRound c) - polyOf c * X := by
  have hround : polyOf (crcRound c) = polyOf (c <<< 1) + (if c.msb then polyOf Config.crcPoly else 0) := by
    rw [crcRound_eq_xor, polyOf_xor]
    split
    · rfl
    · simp [polyOf]
  rw [hround, ← polyOf_shiftLeft_one, add_sub_add_left_eq_sub]
  split
  · rw [CharTwo.sub_eq_add, polyOf_crcPoly]
  · simp

theorem generator_dvd_crcRounds (n : Nat) (c : Half) :
    generator ∣ polyOf (crcRounds n c) - polyOf c * X ^ n := by
  induction n generalizing c with
  | zero => simp [crcRounds]
  | succ n ih =>
    have hsplit : polyOf (crcRounds (n + 1) c) - polyOf c * X ^ (n + 1)
        = (polyOf (crcRounds n (crcRound c)) - polyOf (crcRound c) * X ^ n)
          + (polyOf (crcRound c) - polyOf c * X) * X ^ n := by
      rw [crcRounds]
      ring
    rw [hsplit]
    exact dvd_add (ih _) (Dvd.dvd.mul_right (generator_dvd_crcRound c) _)

/-- Settles O3: each round multiplies by `x` up to a multiple of the generator, so the byte step is
congruent to the product, and 16 bits have a degree below the generator's. -/
theorem crcStepIsTheRemainderByTheGenerator : Obligations.CrcStepIsTheRemainderByTheGenerator := by
  unfold Obligations.CrcStepIsTheRemainderByTheGenerator
  intro c b
  have hfed : polyOf (c ^^^ (b.setWidth 16 <<< 8)) * X ^ 8 = polyOf c * X ^ 8 + polyOf b * X ^ 16 := by
    rw [polyOf_xor, polyOf_setWidth_shiftLeft]
    ring
  have hdegree : (polyOf (crcStep c b)).degree < generator.degree := by
    rw [degree_generator]
    exact degree_polyOf_lt _
  rw [← hfed, ← (modByMonic_eq_self_iff generator_monic).2 hdegree]
  exact modByMonic_eq_of_dvd_sub generator_monic (generator_dvd_crcRounds 8 _)

end

end Sys2Proof.Proofs
end

section
/-! PROOFS. The statements about the encode operations (41_encoder.md): what they deliver inside their
domains and outside, and that operands and build decide it alone. -/

namespace Sys2Proof.Proofs

open Sys2Proof Sys2Proof.Machine

/-! ### Deliveries -/

theorem inDomain_iff {low high : Int} {v : Half} : inDomain low high v = true ↔ low ≤ v.toInt ∧ v.toInt ≤ high := by
  simp [inDomain, signedValue]

theorem inDomain_eq_false {low high : Int} {v : Half} (h : v.toInt < low ∨ high < v.toInt) :
    inDomain low high v = false := by
  rw [← Bool.not_eq_true, inDomain_iff]
  omega

/-- A value of the signed byte range is delivered as the packet with its byte. -/
theorem commandPorts_of_fits {v : Half} (hlow : -128 ≤ v.toInt) (hhigh : v.toInt ≤ 127) (sub : Byte) :
    commandPorts sub v = { res := some .ok, tx := some (checkedCommand sub (byteOf v)) } :=
  if_pos (fitsByte_iff.2 ⟨hlow, hhigh⟩)

theorem commandPorts_of_not_fits {v : Half} (h : v.toInt < -128 ∨ 127 < v.toInt) (sub : Byte) :
    commandPorts sub v = { res := some (.invalidValue v) } :=
  if_neg (by rw [Bool.not_eq_true]; exact inDomain_eq_false h)

theorem wrapperPorts_of_inDomain {low high : Int} {v : Half} (h : inDomain low high v = true) (strict : Bool)
    (sub : Byte) : wrapperPorts strict sub low high v = commandPorts sub v := by
  simp [wrapperPorts, h]

theorem wrapperPorts_strict {low high : Int} {v : Half} (h : inDomain low high v = false) (sub : Byte) :
    wrapperPorts true sub low high v = { res := some (.invalidValue v) } := by
  simp [wrapperPorts, h]

theorem wrapperPorts_loose (sub : Byte) (low high : Int) (v : Half) :
    wrapperPorts false sub low high v = commandPorts sub v := rfl

theorem exec_of_isEncode_idle {i : Instr} (hi : Sys2Proof.Claims.isEncode i = true) {s : State}
    (h : s.busy = false) : exec i s = .next (s.deliver (encodePorts s.params i)) := by
  rw [exec_of_isEncode hi, hostOp_idle h]

theorem exec_encCmd_idle {s : State} (h : s.busy = false) (sub : Byte) (v : Half) :
    exec (.encCmd sub v) s = .next (s.deliver (commandPorts sub v)) :=
  exec_of_isEncode_idle (i := .encCmd sub v) rfl h

theorem exec_encQry_idle {s : State} (h : s.busy = false) :
    exec .encQry s = .next (sendPacket queryPacket s) := exec_of_isEncode_idle (i := .encQry) rfl h

/-! ### The statements -/

/-- Settles O12: the range test on the full operand decides between the packet with the operand's low
byte, whose value is the operand's, and InvalidValue. -/
theorem encCmdWritesTheCommandPacket : Obligations.EncCmdWritesTheCommandPacket := by
  unfold Obligations.EncCmdWritesTheCommandPacket
  refine ⟨fun sub h l => rfl, fun sub v s hidle hlow hhigh => ⟨byteOf v, toInt_byteOf hlow hhigh, ?_⟩,
    fun sub v s hidle hout => ?_⟩
  · rw [exec_encCmd_idle hidle, commandPorts_of_fits hlow hhigh]
    rfl
  · rw [exec_encCmd_idle hidle, commandPorts_of_not_fits hout]
    rfl

/-- The rule holds of an encode operation that delivers as a wrapper does, with a domain inside the
signed byte. -/
theorem wrapperRule {op : Half → Instr} {code sub : Byte} {low high : Int}
    (hdecode : ∀ h l, decodeIn .op [code, h, l] = .ok (op (h ++ l)))
    (hencode : ∀ v, Sys2Proof.Claims.isEncode (op v) = true)
    (hports : ∀ (p : Params) (v : Half), encodePorts p (op v) = wrapperPorts p.strictDomain sub low high v)
    (hlow : -128 ≤ low) (hhigh : high ≤ 127) : Sys2Proof.Claims.WrapperRule op code sub low high := by
  refine ⟨hdecode, fun v s hidle hv hv' => ?_, fun v s hidle hstrict hout => ?_, fun v s hloose => ?_⟩
  · have hin : inDomain low high v = true := inDomain_iff.2 ⟨hv, hv'⟩
    refine ⟨byteOf v, toInt_byteOf (hlow.trans hv) (hv'.trans hhigh), ?_⟩
    rw [exec_of_isEncode_idle (hencode v) hidle, hports, wrapperPorts_of_inDomain hin,
      commandPorts_of_fits (hlow.trans hv) (hv'.trans hhigh)]
    rfl
  · rw [exec_of_isEncode_idle (hencode v) hidle, hports, hstrict, wrapperPorts_strict (inDomain_eq_false hout)]
    rfl
  · rw [exec_of_isEncode (hencode v), hports, hloose, wrapperPorts_loose]
    exact (exec_of_isEncode (i := .encCmd sub v) rfl s).symm

/-- Settles O13: the three wrappers are one rule with their own codes, subcommands and domains. -/
theorem wrapperEncodesTestTheirDomain : Obligations.WrapperEncodesTestTheirDomain := by
  unfold Obligations.WrapperEncodesTestTheirDomain
  exact ⟨wrapperRule (fun _ _ => rfl) (fun _ => rfl) (fun _ _ => rfl) (by decide) (by decide),
    wrapperRule (fun _ _ => rfl) (fun _ => rfl) (fun _ _ => rfl) (by decide) (by decide),
    wrapperRule (fun _ _ => rfl) (fun _ => rfl) (fun _ _ => rfl) (by decide) (by decide)⟩

/-- The checksum goes to the last two of the twelve offsets, over the ten before them. -/
theorem appendChecksum_append {header blank : List Byte} (hheader : header.length = 10) (hblank : blank.length = 2) :
    appendChecksum (header ++ blank) = header ++ checksum header := by
  have hread : memRead (header ++ blank) 0 10 = header := by
    rw [memRead, List.drop_zero, List.take_left' hheader]
  rw [appendChecksum, hread, memWrite, List.take_left' hheader, length_checksum,
    List.drop_of_length_le (by rw [List.length_append, hheader, hblank]), List.append_nil]

theorem queryPacket_eq_header_append_checksum :
    queryPacket = Config.qryHeader ++ checksum Config.qryHeader := by
  have hwritten : memWrite blankPacket 0 Config.qryHeader = Config.qryHeader ++ [0x00#8, 0x00#8] := rfl
  rw [queryPacket, hwritten, appendChecksum_append rfl rfl]

/-- The packet ENC.QRY writes is the constant QRY12 (30_encoding.md R48). -/
theorem queryPacket_eq_queryUnit : queryPacket = queryUnit := by
  rw [queryPacket_eq_header_append_checksum, checksum, crc16_qryHeader]
  rfl

/-- Settles O14: the packet is the header and its checksum, which is evaluated once. -/
theorem encQryEmitsTheConstantPacket : Obligations.EncQryEmitsTheConstantPacket := by
  unfold Obligations.EncQryEmitsTheConstantPacket
  refine ⟨rfl, crc16_qryHeader, fun s h => ?_⟩
  rw [exec_encQry_idle h, queryPacket_eq_queryUnit]
  rfl

/-- Settles O16: every encode delivers what its operands and the parameters decide, and no more. -/
theorem encodesArePure : Obligations.EncodesArePure := by
  unfold Obligations.EncodesArePure
  refine ⟨fun i s t hi h => ?_, fun i s s' hi hidle hidle' hparams => ?_⟩
  · obtain ⟨-, rfl⟩ := hostOp_next_eq_next.1 (exec_of_isEncode hi s ▸ h)
    rfl
  · exact ⟨_, _, exec_of_isEncode_idle hi hidle, exec_of_isEncode_idle hi hidle', by
      rw [deliver_ports, deliver_ports, hparams]⟩

end Sys2Proof.Proofs
end

section
/-! PROOFS. The statements about one unit at the cursor (42_decoder.md R93 to R100): what the frame step
gives for a unit cut off, a whole unit with a wrong checksum and one with the right checksum, then the
same of the packets the block sends. -/

namespace Sys2Proof.Proofs

open Sys2Proof Sys2Proof.Machine Sys2Proof.Claims

/-! ### Conditions -/

theorem noteIf_eq_or (fails : Bool) (cs : CondSet) (c : Condition) :
    noteIf fails cs c = cs ||| (if fails then only c else 0#8) := by
  cases fails <;> simp [noteIf, note]

theorem noteIf_badMagic (u : List Byte) :
    noteIf (badMagic (memRead u 0 2)) noConditions .headerMismatch = magicCond u := by
  have hread : memRead u 0 2 = u.take 2 := rfl
  rw [noteIf_eq_or, magicCond, badMagic, hread]
  by_cases h : u.take 2 = [0x4C#8, 0x54#8] <;> simp [h, Config.magic, noConditions]

/-! ### The frame step on one unit -/

theorem decFrame_of_length_lt_three {u : List Byte} (h : u.length < 3) :
    decFrame u 0 = ({ kind := .truncated, cond := only .truncatedFrame, start := 0, flen := u.length, payload := [] },
      u.length) := by
  rw [decFrame, if_pos (by omega)]
  rfl

theorem decFrame_of_cut_off {u : List Byte} (h : 3 ≤ u.length) (hcut : u.length < 3 + (byteAt u 2).toNat) :
    decFrame u 0
      = ({ kind := .truncated, cond := magicCond u ||| only .truncatedFrame, start := 0, flen := u.length,
           payload := [] }, u.length) := by
  rw [decFrame, if_neg (by omega), if_pos (by simpa using hcut), noteIf_badMagic]
  rfl

/-- A whole unit goes on to the checksum test, and is passed over. -/
theorem decFrame_of_whole {u : List Byte} {L : Nat} (hlen : u.length = 3 + L) (hbyte : L = (byteAt u 2).toNat) :
    decFrame u 0 = (wholeFrame u 0 L (magicCond u), 3 + L) := by
  have hnext : (decFrame u 0).2 = 3 + L := by
    rw [decFrame, if_neg (by omega)]
    simp only [Nat.zero_add, u8, ← hbyte, hlen, lt_self_iff_false, if_false]
  exact Prod.ext (by rw [decFrame_whole hlen hbyte, noteIf_badMagic]) hnext

theorem wholeFrame_of_lt_two {L : Nat} (h : L < 2) (u : List Byte) (cond : CondSet) :
    wholeFrame u 0 L cond
      = { kind := .dropped, cond := cond ||| only .checksumMismatch, start := 0, flen := 3 + L, payload := [] } :=
  if_pos h

/-- The checksum test of a whole unit compares its last two bytes with the checksum of those before. -/
theorem wholeFrame_of_two_le {u : List Byte} {L : Nat} (cond : CondSet) (hlen : u.length = 3 + L) (hL : 2 ≤ L) :
    wholeFrame u 0 L cond
      = if checksum (u.take (1 + L)) ≠ u.drop (1 + L) then
          { kind := .dropped, cond := cond ||| only .checksumMismatch, start := 0, flen := 3 + L, payload := [] }
        else reportRecord cond 0 (3 + L) ((u.drop 3).take (L - 2)) := by
  have hbody : memRead u (0 + 3) L = u.drop 3 := List.take_of_length_le (by simp; omega)
  have hsum : memRead (u.drop 3) (L - 2) 2 = u.drop (1 + L) := by
    rw [memRead, List.drop_drop, List.take_of_length_le (by simp; omega), show 3 + (L - 2) = 1 + L by omega]
  have hsummed : memRead u 0 (3 + L - 2) = u.take (1 + L) := by
    rw [memRead, List.drop_zero, show 3 + L - 2 = 1 + L by omega]
  rw [wholeFrame, if_neg (by omega), hbody, hsum, hsummed]
  rfl

/-! ### Emission -/

/-- A record of another kind than REPORT is emitted and nothing else. -/
theorem emit_of_kind_ne_report {r : Record} (h : r.kind ≠ .report) (n : Nat) (s : State) :
    emit r n s = { s with
      cursor := n
      ports := { s.ports with records := s.ports.records ++ [{ record := r, dispatched := none }] } } := by
  simp [emit, h]

/-- A REPORT is emitted and, with HAS_DSP, dispatched. -/
theorem emit_of_kind_eq_report {r : Record} (h : r.kind = .report) (n : Nat) (s : State) :
    emit r n s = { s with
      st := if s.params.hasDsp then (dspApply s.params.gateMask r.payload r.cond s.st).2 else s.st
      cursor := n
      ports := { s.ports with records := s.ports.records ++
        [{ record := r,
           dispatched := if s.params.hasDsp
             then some (dspApply s.params.gateMask r.payload r.cond s.st).1 else none }] } } := by
  cases hdsp : s.params.hasDsp <;> simp [emit, h, hdsp]

theorem unitStep_eq_emit {u : List Byte} {r : Record} {n : Nat} (h : decFrame u 0 = (r, n)) (s : State) :
    unitStep u s = emit { r with start := s.cursor + r.start } (s.cursor + n) s := by
  rw [unitStep, h]

theorem unitStep_eq_emittedOnly {u : List Byte} {r : Record} {n : Nat} (h : decFrame u 0 = (r, n))
    (hstart : r.start = 0) (hkind : r.kind ≠ .report) (s : State) :
    unitStep u s = emittedOnly s n { r with start := s.cursor } := by
  rw [unitStep_eq_emit h, hstart, Nat.add_zero, emit_of_kind_ne_report (by exact hkind)]
  rfl

theorem exec_wFrame (u : List Byte) (s : State) : exec (.wFrame u) s = .next (unitStep u s) := rfl

/-! ### Units cut off, and units without a matching checksum -/

/-- Settles O17: the two tests of R95, before the length byte is read and after. -/
theorem cutOffUnitsAreTruncated : Obligations.CutOffUnitsAreTruncated := by
  unfold Obligations.CutOffUnitsAreTruncated
  refine ⟨fun u s _ hshort => ?_, fun u s h3 hcut => ?_⟩
  · rw [exec_wFrame, unitStep_eq_emittedOnly (decFrame_of_length_lt_three hshort) rfl (by simp)]
  · rw [exec_wFrame, unitStep_eq_emittedOnly (decFrame_of_cut_off h3 hcut) rfl (by simp)]

theorem decFrame_of_no_checksum {u : List Byte} (hwhole : u.length = 3 + (byteAt u 2).toNat) (hshort : u.length < 5) :
    decFrame u 0
      = ({ kind := .dropped, cond := magicCond u ||| only .checksumMismatch, start := 0, flen := u.length,
           payload := [] }, u.length) := by
  rw [decFrame_of_whole hwhole rfl, wholeFrame_of_lt_two (by omega), hwhole]

theorem decFrame_of_wrong_checksum {u : List Byte} (hwhole : u.length = 3 + (byteAt u 2).toNat) (h5 : 5 ≤ u.length)
    (hsum : u.drop (u.length - 2) ≠ checksum (u.take (u.length - 2))) :
    decFrame u 0
      = ({ kind := .dropped, cond := magicCond u ||| only .checksumMismatch, start := 0, flen := u.length,
           payload := [] }, u.length) := by
  rw [show u.length - 2 = 1 + (byteAt u 2).toNat by omega] at hsum
  rw [decFrame_of_whole hwhole rfl, wholeFrame_of_two_le _ hwhole (by omega), if_pos hsum.symm, hwhole]

/-- Settles O18: no room for a checksum, or one that differs. -/
theorem unitsWithoutAMatchingChecksumAreDropped : Obligations.UnitsWithoutAMatchingChecksumAreDropped := by
  unfold Obligations.UnitsWithoutAMatchingChecksumAreDropped
  refine ⟨fun u s _ hwhole hshort => ?_, fun u s h5 hwhole hsum => ?_⟩
  · rw [exec_wFrame, unitStep_eq_emittedOnly (decFrame_of_no_checksum hwhole hshort) rfl (by simp)]
  · rw [exec_wFrame, unitStep_eq_emittedOnly (decFrame_of_wrong_checksum hwhole h5 hsum) rfl (by simp)]

/-! ### Units with the right checksum -/

/-- The bytes of a unit before its checksum. -/
def summedBytes (m0 m1 : Byte) (sem : List Byte) : List Byte :=
  m0 :: m1 :: BitVec.ofNat 8 (sem.length + 2) :: sem

theorem checkedUnit_eq (m0 m1 : Byte) (sem : List Byte) :
    checkedUnit m0 m1 sem = summedBytes m0 m1 sem ++ checksum (summedBytes m0 m1 sem) := rfl

@[simp] theorem length_summedBytes (m0 m1 : Byte) (sem : List Byte) :
    (summedBytes m0 m1 sem).length = sem.length + 3 := rfl

@[simp] theorem length_checkedUnit (m0 m1 : Byte) (sem : List Byte) :
    (checkedUnit m0 m1 sem).length = sem.length + 5 := by
  rw [checkedUnit_eq, List.length_append, length_summedBytes, length_checksum]

theorem byteAt_two_checkedUnit (m0 m1 : Byte) {sem : List Byte} (h : sem.length ≤ 253) :
    (byteAt (checkedUnit m0 m1 sem) 2).toNat = sem.length + 2 := by
  change (BitVec.ofNat 8 (sem.length + 2)).toNat = _
  rw [BitVec.toNat_ofNat, Nat.mod_eq_of_lt (by omega)]

theorem noteIf_badPrefix_magicCond_checkedUnit (m0 m1 : Byte) (sem : List Byte) :
    noteIf (badPrefix sem) (magicCond (checkedUnit m0 m1 sem)) .unrecognizedPrefix = reportCond m0 m1 sem := by
  have hmagic : magicCond (checkedUnit m0 m1 sem)
      = if m0 = 0x4C#8 ∧ m1 = 0x54#8 then 0#8 else only .headerMismatch := by
    simp [magicCond, checkedUnit_eq, summedBytes]
  rw [noteIf_eq_or, hmagic, reportCond, badPrefix, Config.subHeader]
  by_cases h : sem.take 2 = [0x00#8, 0x20#8] <;> simp [h]

/-- The frame step on a unit with the right checksum. -/
theorem decFrame_checkedUnit (m0 m1 : Byte) {sem : List Byte} (h : sem.length ≤ 253) :
    decFrame (checkedUnit m0 m1 sem) 0
      = ({ kind := .report, cond := reportCond m0 m1 sem, start := 0, flen := sem.length + 5,
           payload := sem.drop 2 }, sem.length + 5) := by
  have hlen : (checkedUnit m0 m1 sem).length = 3 + (sem.length + 2) := by rw [length_checkedUnit]; omega
  have hsummed : (checkedUnit m0 m1 sem).take (1 + (sem.length + 2)) = summedBytes m0 m1 sem := by
    rw [checkedUnit_eq, List.take_left' (by rw [length_summedBytes]; omega)]
  have hsum : (checkedUnit m0 m1 sem).drop (1 + (sem.length + 2)) = checksum (summedBytes m0 m1 sem) := by
    rw [checkedUnit_eq, List.drop_left' (by rw [length_summedBytes]; omega)]
  have hsem : ((checkedUnit m0 m1 sem).drop 3).take (sem.length + 2 - 2) = sem := by
    change (sem ++ checksum (summedBytes m0 m1 sem)).take sem.length = sem
    rw [List.take_left]
  rw [decFrame_of_whole hlen (byteAt_two_checkedUnit m0 m1 h).symm, wholeFrame_of_two_le _ hlen (by omega), hsummed,
    hsum, if_neg (not_not.2 rfl), hsem, reportRecord, noteIf_badPrefix_magicCond_checkedUnit,
    show 3 + (sem.length + 2) = sem.length + 5 by omega]

/-- Such a unit at the cursor emits one REPORT, applied with HAS_DSP. -/
theorem unitStep_checkedUnit (m0 m1 : Byte) {sem : List Byte} (h : sem.length ≤ 253) (s : State) :
    unitStep (checkedUnit m0 m1 sem) s
      = emit { kind := .report, cond := reportCond m0 m1 sem, start := s.cursor, flen := sem.length + 5,
               payload := sem.drop 2 } (s.cursor + (sem.length + 5)) s :=
  unitStep_eq_emit (decFrame_checkedUnit m0 m1 h) s

/-- Settles O19: a whole unit with the right checksum is emitted as a REPORT, whatever its magic and
sub-header are, and emission applies it. -/
theorem checkedUnitsAreReportedAndApplied : Obligations.CheckedUnitsAreReportedAndApplied := by
  unfold Obligations.CheckedUnitsAreReportedAndApplied
  intro m0 m1 sem s h
  rw [exec_wFrame, unitStep_checkedUnit m0 m1 h, emit_of_kind_eq_report rfl]

/-! ### The packets the block sends, as units (30_encoding.md R49) -/

theorem checkedCommand_eq_checkedUnit (sub v : Byte) :
    checkedCommand sub v
      = checkedUnit 0x4C#8 0x54#8 [0x00#8, 0x20#8, 0x57#8, 0x00#8, sub, 0x01#8, v] := rfl

theorem applyReport_other {g : Byte} (h2 : g ≠ 0x02#8) (h3 : g ≠ 0x03#8) (rest : List Byte) (st : DeviceState) :
    applyReport (g :: rest) st = (only .unrecognizedCategory, st) := by
  rw [applyReport, if_neg (by simp), if_neg (show ¬ byteAt (g :: rest) 0 = Config.catUpdate from h2),
    if_neg (show ¬ byteAt (g :: rest) 0 = Config.catSnapshot from h3)]

/-- A report without conditions is never gated. -/
theorem dspApply_no_conditions (gate : CondSet) (p : List Byte) (st : DeviceState) :
    dspApply gate p 0#8 st = applyReport p st := by
  simp [dspApply, gated]

theorem dspApply_command (gate : CondSet) (sub v : Byte) (st : DeviceState) :
    dspApply gate [0x57#8, 0x00#8, sub, 0x01#8, v] 0#8 st = (only .unrecognizedCategory, st) := by
  rw [dspApply_no_conditions, applyReport_other (by decide) (by decide)]

theorem unitStep_checkedCommand (sub v : Byte) (s : State) :
    unitStep (checkedCommand sub v) s = { s with
      cursor := s.cursor + 12
      ports := { s.ports with records := s.ports.records ++
        [{ record := { kind := .report, cond := 0#8, start := s.cursor, flen := 12,
                       payload := [0x57#8, 0x00#8, sub, 0x01#8, v] },
           dispatched := if s.params.hasDsp then some (only .unrecognizedCategory) else none }] } } := by
  have hcond : reportCond 0x4C#8 0x54#8 [0x00#8, 0x20#8, 0x57#8, 0x00#8, sub, 0x01#8, v] = 0#8 := by
    simp [reportCond]
  rw [checkedCommand_eq_checkedUnit, unitStep_checkedUnit _ _ (by simp), emit_of_kind_eq_report rfl, hcond]
  simp [dspApply_command]

theorem decFrame_commandUnit_of_ne {sub v : Byte} {c : Half} (h : c ≠ crc16 (commandHeader sub v)) :
    decFrame (commandUnit sub v c) 0
      = ({ kind := .dropped, cond := only .checksumMismatch, start := 0, flen := 12, payload := [] }, 12) := by
  have hmagic : magicCond (commandUnit sub v c) = 0#8 := if_pos rfl
  have hsum : be16 c ≠ checksum (commandHeader sub v) := by
    intro heq
    rw [← ofBe16_hi_lo c] at h
    exact h ((eq_ofBe16_iff _ _ _).2 heq).symm
  have hdropped := decFrame_of_wrong_checksum (u := commandUnit sub v c) rfl (show 5 ≤ 12 by decide) hsum
  rwa [hmagic, BitVec.zero_or] at hdropped

/-- The rule holds of an instruction whose meaning is the frame step on the command unit. -/
theorem commandUnitRule {i : Byte → Half → Instr} {sub : Byte}
    (hexec : ∀ v c s, exec (i v c) s = .next (unitStep (commandUnit sub v c) s)) : CommandUnitRule i sub := by
  refine ⟨fun v s => ?_, fun v c s hne => ?_⟩
  · rw [hexec]
    exact congrArg Host.Outcome.next (unitStep_checkedCommand sub v s)
  · rw [hexec, unitStep_eq_emittedOnly (decFrame_commandUnit_of_ne hne) rfl (by simp)]

/-- Settles O20: with its right checksum a command unit is a checked unit of category 57; with another
it is dropped. -/
theorem commandUnitsAreReportedAndChangeNothing : Obligations.CommandUnitsAreReportedAndChangeNothing := by
  unfold Obligations.CommandUnitsAreReportedAndChangeNothing
  exact ⟨fun sub => commandUnitRule fun _ _ _ => rfl, commandUnitRule fun _ _ _ => rfl,
    commandUnitRule fun _ _ _ => rfl, commandUnitRule fun _ _ _ => rfl⟩

theorem queryUnit_eq_checkedUnit :
    queryUnit = checkedUnit 0x4C#8 0x54#8 [0x00#8, 0x00#8, 0x53#8, 0x00#8, 0x00#8, 0x01#8, 0x00#8] := by
  rw [← queryPacket_eq_queryUnit, queryPacket_eq_header_append_checksum]
  rfl

theorem reportCond_query :
    reportCond 0x4C#8 0x54#8 [0x00#8, 0x00#8, 0x53#8, 0x00#8, 0x00#8, 0x01#8, 0x00#8] = only .unrecognizedPrefix := by
  decide

theorem dspApply_query (gate : CondSet) (st : DeviceState) :
    dspApply gate [0x53#8, 0x00#8, 0x00#8, 0x01#8, 0x00#8] (only .unrecognizedPrefix) st
      = (if gate &&& only .unrecognizedPrefix = 0#8 then only .unrecognizedCategory else 0#8, st) := by
  rw [dspApply, gated, BitVec.and_comm, applyReport_other (by decide) (by decide)]
  by_cases h : gate &&& only .unrecognizedPrefix = 0#8 <;> simp [h, noConditions]

/-- Settles O21: the QueryAll packet is a checked unit without the sub-header, of category 53. -/
theorem queryUnitIsReportedAndChangesNothing : Obligations.QueryUnitIsReportedAndChangesNothing := by
  unfold Obligations.QueryUnitIsReportedAndChangesNothing
  intro s
  rw [exec_of_space_wire rfl, encode, queryUnit_eq_checkedUnit, unitStep_checkedUnit _ _ (by simp),
    emit_of_kind_eq_report rfl, reportCond_query]
  simp [dspApply_query]

end Sys2Proof.Proofs
end

section
/-! PROOFS. What a step finds and does (20_memory.md R43, 42_decoder.md R91, 43_dispatch.md R107): one rule
for each source of its bytes, and everything that can have happened when it answers. -/

namespace Sys2Proof.Proofs

open Sys2Proof Sys2Proof.Machine

/-! ### Fetching -/

theorem fetch_of_not_reset {s : State} (h : ∀ rest, s.pending ≠ .reset :: rest) : fetch s = fetchInstruction s := by
  unfold fetch
  split
  · exact absurd ‹_› (h _)
  · rfl

theorem fetch_reset {s : State} {rest : List HostRequest} (h : s.pending = .reset :: rest) :
    fetch s = .reset rest := by
  rw [fetch, h]

theorem fetch_report {s : State} {p : List Byte} (hreset : ∀ rest, s.pending ≠ .reset :: rest)
    (h : s.report = some p) : fetch s = .bytes .report p { s with report := none } := by
  rw [fetch_of_not_reset hreset, fetchInstruction, h]

theorem fetch_unit {s : State} (hreset : ∀ rest, s.pending ≠ .reset :: rest) (hreport : s.report = none)
    (h : s.cursor < s.rx.length) : fetch s = .bytes .wire (s.rx.drop s.cursor) s := by
  rw [fetch_of_not_reset hreset, fetchInstruction, hreport]
  exact if_pos h

theorem fetch_operation {s : State} {bs : List Byte} {rest : List HostRequest} (hidle : s.busy = false)
    (h : s.pending = .operation bs :: rest) : fetch s = .bytes .op bs { s with pending := rest } := by
  obtain ⟨hreport, hcursor⟩ := busy_eq_false.1 hidle
  rw [fetch_of_not_reset (by simp [h]), fetchInstruction, hreport]
  simp [hcursor, hreport, fetchOperation, h]

theorem fetch_idle {s : State} (hidle : s.busy = false) (h : s.pending = []) : fetch s = .idle := by
  obtain ⟨hreport, hcursor⟩ := busy_eq_false.1 hidle
  rw [fetch_of_not_reset (by simp [h]), fetchInstruction, hreport]
  simp [hcursor, fetchOperation, h]

/-! ### Stepping -/

theorem step_of_fetch_idle {s : State} (h : fetch s = .idle) : step s = .next s := by
  rw [step, h]

theorem step_of_fetch_reset {s : State} {rest : List HostRequest} (h : fetch s = .reset rest) :
    step s = .next (resetInstance rest s) := by
  rw [step, h]

theorem step_of_decode {s s' : State} {sp : Space} {bs : List Byte} {i : Instr} (hfetch : fetch s = .bytes sp bs s')
    (h : decodeIn sp bs = .ok i) : step s = exec i s' := by
  rw [step, hfetch]
  simp only [h]

theorem step_of_reject {s s' : State} {sp : Space} {bs : List Byte} {e : DecodeError}
    (hfetch : fetch s = .bytes sp bs s') (h : decodeIn sp bs = .error e) : step s = reject e bs s' := by
  rw [step, hfetch]
  simp only [h]

/-- Settles O51: each source of bytes is what `fetch` finds under its condition. -/
theorem stepRunsTheDecodedInstruction : Obligations.StepRunsTheDecodedInstruction := by
  unfold Obligations.StepRunsTheDecodedInstruction
  exact ⟨fun _ _ _ _ hidle hpending => step_of_decode (fetch_operation hidle hpending),
    fun _ _ hreset hreport hcursor => step_of_decode (fetch_unit hreset hreport hcursor),
    fun _ _ _ hreset hreport => step_of_decode (fetch_report hreset hreport)⟩

/-- Settles O52: the decoder's table has no such code, and the step passes its rejection on. -/
theorem reservedOperationCodesAreRefused : Obligations.ReservedOperationCodesAreRefused := by
  unfold Obligations.ReservedOperationCodesAreRefused
  intro code args h
  have hreserved : decodeIn .op (code :: args) = .error (.reservedOperation code) := decodeOp_reserved h args
  refine ⟨hreserved, fun s rest hidle hpending => ?_⟩
  rw [step_of_reject (fetch_operation hidle hpending) hreserved]
  rfl

/-! ### Everything a step can have done -/

/-- The bytes a step takes, and the state it leaves them from. -/
inductive Took (s : State) : Space → List Byte → State → Prop
  | operation {bs : List Byte} {rest : List HostRequest} (hidle : s.busy = false)
      (h : s.pending = .operation bs :: rest) : Took s .op bs { s with pending := rest }
  | unit (hreport : s.report = none) (h : s.cursor < s.rx.length) : Took s .wire (s.rx.drop s.cursor) s
  | report {p : List Byte} (h : s.report = some p) : Took s .report p { s with report := none }

theorem took_of_fetch {s s' : State} {sp : Space} {bs : List Byte} (h : fetch s = .bytes sp bs s') :
    Took s sp bs s' := by
  obtain hf | ⟨r, -, hf⟩ | ⟨bs', r, hpending, hidle, hf⟩ | ⟨hreport, hcursor, hf⟩ | ⟨p, hreport, hf⟩ :=
    fetch_cases s <;> rw [hf] at h <;> cases h
  · exact .operation hidle hpending
  · exact .unit hreport hcursor
  · exact .report hreport

/-- A step that answers stood still, or was a reset, or ran an instruction, or answered a payload that
holds no unit. -/
theorem step_eq_next {s t : State} (h : step s = .next t) :
    (fetch s = .idle ∧ t = s)
    ∨ (∃ rest, s.pending = .reset :: rest ∧ t = resetInstance rest s)
    ∨ (∃ sp bs s' i, Took s sp bs s' ∧ decodeIn sp bs = .ok i ∧ exec i s' = .next t)
    ∨ (∃ sp bs s', Took s sp bs s' ∧ t = answer (applyReport bs s'.st) s') := by
  cases hfetch : fetch s with
  | idle =>
    rw [step_of_fetch_idle hfetch] at h
    cases h
    exact .inl ⟨rfl, rfl⟩
  | reset rest =>
    rw [step_of_fetch_reset hfetch] at h
    cases h
    obtain hf | ⟨r, hpending, hf⟩ | ⟨_, _, _, _, hf⟩ | ⟨_, _, hf⟩ | ⟨_, _, hf⟩ := fetch_cases s <;>
      rw [hfetch] at hf <;> cases hf
    exact .inr (.inl ⟨rest, hpending, rfl⟩)
  | bytes sp bs s' =>
    have htook := took_of_fetch hfetch
    cases hdecode : decodeIn sp bs with
    | ok i =>
      rw [step_of_decode hfetch hdecode] at h
      exact .inr (.inr (.inl ⟨sp, bs, s', i, htook, hdecode, h⟩))
    | error e =>
      rw [step_of_reject hfetch hdecode] at h
      exact .inr (.inr (.inr ⟨sp, bs, s', htook, reject_eq_next h⟩))

end Sys2Proof.Proofs
end

section
/-! PROOFS. The statements about DEC.BUF (42_decoder.md): its records are a function of the buffer alone,
its state is those records emitted in order; then how the records of a buffer tile it and what kinds they
have. -/

namespace Sys2Proof.Proofs

open Sys2Proof Sys2Proof.Machine Sys2Proof.Claims

/-! ### The records of a buffer -/

/-- The records of the bytes `rest`, which begin at offset `start` of the buffer: one frame step after
another until nothing is left. -/
def recordsAt (start : Nat) (rest : List Byte) : List Record :=
  if _h : rest = [] then []
  else
    { (decFrame rest 0).1 with start := start }
      :: recordsAt (start + (decFrame rest 0).2) (rest.drop (decFrame rest 0).2)
termination_by rest.length
decreasing_by
  have hconsumed := (decFrame_next (List.length_pos_iff.2 _h)).1
  have hlen := List.length_pos_iff.2 _h
  rw [List.length_drop]
  omega

@[simp] theorem recordsAt_nil (start : Nat) : recordsAt start [] = [] := by
  rw [recordsAt, dif_pos rfl]

theorem recordsAt_of_ne_nil {rest : List Byte} (h : rest ≠ []) (start : Nat) :
    recordsAt start rest = { (decFrame rest 0).1 with start := start }
      :: recordsAt (start + (decFrame rest 0).2) (rest.drop (decFrame rest 0).2) := by
  rw [recordsAt, dif_neg h]

/-- The record emitted, and the cursor moved to its end. -/
def emitNext (s : State) (r : Record) : State := emit r (r.start + r.flen) s

theorem frameStep_eq_emitNext {s : State} (h : s.cursor < s.rx.length) :
    frameStep s = emitNext s { (decFrame (s.rx.drop s.cursor) 0).1 with start := s.cursor } := by
  have hnext := decFrame_flen h
  rw [decFrame_drop h.le, decFrame_start, Nat.add_zero] at hnext
  rw [frameStep, decFrame_drop h.le, decFrame_start, emitNext, Nat.add_zero, ← hnext]

/-- The loop of DEC.BUF emits the records of the bytes that are left. -/
theorem decodeLoop_eq_foldl {n : Nat} {s : State} (hcursor : s.cursor ≤ s.rx.length)
    (hfuel : s.rx.length - s.cursor ≤ n) :
    decodeLoop n s = (recordsAt s.cursor (s.rx.drop s.cursor)).foldl emitNext s := by
  induction n generalizing s with
  | zero =>
    rw [List.drop_of_length_le (by omega), recordsAt_nil]
    rfl
  | succ n ih =>
    rw [decodeLoop]
    split
    case isTrue hlt =>
      have hnext : (decFrame s.rx s.cursor).2 = s.cursor + (decFrame (s.rx.drop s.cursor) 0).2 := by
        rw [decFrame_drop hcursor]
      obtain ⟨hmoved, hinside⟩ := decFrame_next hlt
      have hframe : (frameStep s).rx = s.rx ∧ (frameStep s).cursor = (decFrame s.rx s.cursor).2 := by
        simp [frameStep]
      obtain ⟨hrx, hcur⟩ := hframe
      rw [recordsAt_of_ne_nil (by simpa using hlt), List.foldl_cons, List.drop_drop, ← hnext,
        ← frameStep_eq_emitNext hlt, ih (by rw [hrx, hcur]; exact hinside) (by rw [hrx, hcur]; omega), hrx, hcur]
    case isFalse hge =>
      rw [List.drop_of_length_le (by omega), recordsAt_nil]
      rfl

/-- DEC.BUF emits the records of its buffer. -/
theorem exec_decBuf_eq_foldl {buf : List Byte} {s : State} (hidle : s.busy = false)
    (haccepts : accepts s.params buf.length = true) :
    exec (.decBuf buf) s = .next ((recordsAt 0 buf).foldl emitNext (startDecode buf s)) :=
  exec_decBuf_eq_next.2 ⟨hidle, haccepts, decodeLoop_eq_foldl (Nat.zero_le _) (Nat.sub_le _ _)⟩

theorem eq_foldl_of_exec_decBuf {buf : List Byte} {s t : State} (h : exec (.decBuf buf) s = .next t) :
    t = (recordsAt 0 buf).foldl emitNext (startDecode buf s) := by
  obtain ⟨hidle, haccepts, -⟩ := exec_decBuf_eq_next.1 h
  rw [exec_decBuf_eq_foldl hidle haccepts] at h
  exact (Host.Outcome.next.inj h).symm

/-! ### Emitting several records -/

/-- What a record leaves of Device State (R91). -/
def afterRecord (p : Params) (st : DeviceState) (r : Record) : DeviceState :=
  if p.hasDsp && r.kind = .report then (dspApply p.gateMask r.payload r.cond st).2 else st

/-- The state with other values where emission writes. -/
def withEmitted (s : State) (cursor : Nat) (st : DeviceState) (records : List Emitted) : State :=
  { s with cursor := cursor, st := st, ports := { s.ports with records := records } }

theorem emit_eq_withEmitted (r : Record) (n : Nat) (s : State) :
    ∃ st records, emit r n s = withEmitted s n st records := by
  unfold emit
  split <;> exact ⟨_, _, rfl⟩

theorem foldl_emitNext_eq_withEmitted (rs : List Record) (s : State) :
    ∃ cursor st records, rs.foldl emitNext s = withEmitted s cursor st records := by
  induction rs generalizing s with
  | nil => exact ⟨s.cursor, s.st, s.ports.records, rfl⟩
  | cons r rs ih =>
    obtain ⟨st, records, hemit⟩ := emit_eq_withEmitted r (r.start + r.flen) s
    rw [List.foldl_cons, emitNext, hemit]
    exact ih _

theorem foldl_emitNext_records (rs : List Record) (s : State) :
    (rs.foldl emitNext s).ports.records.map (·.record) = s.ports.records.map (·.record) ++ rs := by
  induction rs generalizing s with
  | nil => simp
  | cons r rs ih =>
    obtain ⟨d, hrecords, -⟩ := emit_records r (r.start + r.flen) s
    rw [List.foldl_cons, ih, emitNext, hrecords]
    simp

theorem foldl_emitNext_st (rs : List Record) (s : State) :
    (rs.foldl emitNext s).st = rs.foldl (afterRecord s.params) s.st := by
  induction rs generalizing s with
  | nil => rfl
  | cons r rs ih =>
    rw [List.foldl_cons, ih, List.foldl_cons, emitNext, emit_params, emit_st]
    rfl

/-- Ports and Device State after emission depend on the parameters and on what they were. -/
theorem foldl_emitNext_congr (rs : List Record) {s s' : State} (hparams : s.params = s'.params)
    (hst : s.st = s'.st) (hports : s.ports = s'.ports) :
    (rs.foldl emitNext s').ports = (rs.foldl emitNext s).ports
      ∧ (rs.foldl emitNext s').st = (rs.foldl emitNext s).st := by
  induction rs generalizing s s' with
  | nil => exact ⟨hports.symm, hst.symm⟩
  | cons r rs ih =>
    refine ih (s := emitNext s r) (s' := emitNext s' r) (by simpa [emitNext] using hparams) ?_ ?_
    · rw [emitNext, emitNext, emit_st, emit_st, hparams, hst]
    · simp only [emitNext, emit, hparams, hst, hports]
      split <;> rfl

theorem records_of_exec_decBuf {buf : List Byte} {s t : State} (h : exec (.decBuf buf) s = .next t) :
    t.ports.records.map (·.record) = recordsAt 0 buf := by
  rw [eq_foldl_of_exec_decBuf h, foldl_emitNext_records]
  rfl

theorem st_of_exec_decBuf {buf : List Byte} {s t : State} (h : exec (.decBuf buf) s = .next t) :
    t.st = (recordsAt 0 buf).foldl (afterRecord s.params) s.st := by
  rw [eq_foldl_of_exec_decBuf h, foldl_emitNext_st]
  rfl

/-! ### The records tile the buffer (R92, R102) -/

/-- A frame step ends the buffer or consumes at least three bytes. -/
theorem decFrame_consumes (u : List Byte) : (decFrame u 0).2 = u.length ∨ 3 ≤ (decFrame u 0).2 := by
  unfold decFrame
  dsimp only
  split_ifs
  · exact .inl rfl
  · exact .inl rfl
  · exact .inr (by dsimp only; omega)

theorem flen_decFrame {u : List Byte} (h : u ≠ []) : (decFrame u 0).1.flen = (decFrame u 0).2 := by
  simpa using decFrame_flen (List.length_pos_iff.2 h)

theorem length_recordsAt_le (start : Nat) (rest : List Byte) :
    (recordsAt start rest).length * 3 ≤ rest.length + 2 := by
  induction start, rest using recordsAt.induct with
  | case1 start => simp
  | case2 start rest h ih =>
    rw [recordsAt_of_ne_nil h, List.length_cons]
    have hinside := (decFrame_next (List.length_pos_iff.2 h)).2
    have hpos := List.length_pos_iff.2 h
    obtain hall | hthree := decFrame_consumes rest
    · rw [List.drop_of_length_le hall.ge, recordsAt_nil, List.length_nil]
      omega
    · rw [List.length_drop] at ih
      omega

theorem sum_flen_recordsAt (start : Nat) (rest : List Byte) :
    ((recordsAt start rest).map (·.flen)).sum = rest.length := by
  induction start, rest using recordsAt.induct with
  | case1 start => simp
  | case2 start rest h ih =>
    have hinside := (decFrame_next (List.length_pos_iff.2 h)).2
    rw [recordsAt_of_ne_nil h, List.map_cons, List.sum_cons, ih, List.length_drop, flen_decFrame h]
    omega

theorem start_of_getElem?_recordsAt {start k : Nat} {rest : List Byte} {r : Record}
    (hr : (recordsAt start rest)[k]? = some r) :
    r.start = start + (((recordsAt start rest).take k).map (·.flen)).sum := by
  induction start, rest using recordsAt.induct generalizing k with
  | case1 start => simp at hr
  | case2 start rest h ih =>
    rw [recordsAt_of_ne_nil h] at hr ⊢
    cases k with
    | zero =>
      cases hr
      rfl
    | succ k =>
      rw [List.take_succ_cons, List.map_cons, List.sum_cons, flen_decFrame h, ← Nat.add_assoc]
      exact ih hr

theorem decodeLoop_cursor {n : Nat} {s : State} (hcursor : s.cursor ≤ s.rx.length)
    (hfuel : s.rx.length - s.cursor ≤ n) : (decodeLoop n s).cursor = s.rx.length := by
  induction n generalizing s with
  | zero =>
    rw [decodeLoop]
    omega
  | succ n ih =>
    rw [decodeLoop]
    split
    case isTrue hlt =>
      obtain ⟨hmoved, hinside⟩ := decFrame_next hlt
      have hrx : (frameStep s).rx = s.rx := emit_rx _ _ _
      have hcur : (frameStep s).cursor = (decFrame s.rx s.cursor).2 := emit_cursor _ _ _
      rw [ih (by rw [hrx, hcur]; exact hinside) (by rw [hrx, hcur]; omega), hrx]
    case isFalse hge => omega

theorem cursor_of_exec_decBuf {buf : List Byte} {s t : State} (h : exec (.decBuf buf) s = .next t) :
    t.cursor = buf.length := by
  obtain ⟨-, -, rfl⟩ := exec_decBuf_eq_next.1 h
  exact decodeLoop_cursor (Nat.zero_le _) (Nat.sub_le _ _)

/-- A DEC.BUF writes RX, the cursor, Device State and the ports. -/
theorem frame_of_exec_decBuf {buf : List Byte} {s t : State} (h : exec (.decBuf buf) s = .next t) :
    t = { s with rx := buf, cursor := buf.length, st := t.st, ports := { records := t.ports.records } } := by
  obtain ⟨cursor, st, records, hframe⟩ := foldl_emitNext_eq_withEmitted (recordsAt 0 buf) (startDecode buf s)
  have hcursor := cursor_of_exec_decBuf h
  rw [← eq_foldl_of_exec_decBuf h] at hframe
  rw [← hcursor, hframe]
  rfl

/-- Settles O23: the loop ends at the end, and the records of a buffer tile it, by induction on what is
left of it. -/
theorem decBufConsumesTheWholeBuffer : Obligations.DecBufConsumesTheWholeBuffer := by
  unfold Obligations.DecBufConsumesTheWholeBuffer
  refine ⟨fun buf s hidle haccepts => ?_, fun s hidle => ?_⟩
  · obtain ⟨t, h⟩ : ∃ t, exec (.decBuf buf) s = .next t := ⟨_, exec_decBuf_eq_foldl hidle haccepts⟩
    have hrecords := records_of_exec_decBuf h
    refine ⟨t, h, frame_of_exec_decBuf h, ?_, ?_, fun k e he => ?_⟩
    · have hcount := length_recordsAt_le 0 buf
      rw [← hrecords, List.length_map] at hcount
      omega
    · have hsum := sum_flen_recordsAt 0 buf
      rw [← hrecords, List.map_map] at hsum
      exact hsum
    · have hrecord : (recordsAt 0 buf)[k]? = some e.record := by rw [← hrecords, List.getElem?_map, he]; rfl
      have hstart := start_of_getElem?_recordsAt hrecord
      rw [← hrecords, ← List.map_take, List.map_map, Nat.zero_add] at hstart
      exact hstart
  · have haccepts : accepts s.params ([] : List Byte).length = true := by
      unfold accepts
      split <;> simp
    rw [exec_decBuf_eq_foldl hidle haccepts, recordsAt_nil]
    rfl

/-! ### Kinds (R90) -/

theorem payload_decFrame_length_le (buf : List Byte) (cursor : Nat) : (decFrame buf cursor).1.payload.length ≤ 251 := by
  have hbyte : u8 (byteAt buf (cursor + 2)) < 256 := (byteAt buf (cursor + 2)).isLt
  have hread (L : Nat) : (memRead (memRead buf (cursor + 3) L) 0 (L - 2)).length ≤ L - 2 := by simp [memRead]
  have hsem := hread (u8 (byteAt buf (cursor + 2)))
  unfold decFrame wholeFrame reportRecord
  dsimp only
  split_ifs
  · exact Nat.zero_le _
  · exact Nat.zero_le _
  · exact Nat.zero_le _
  · exact Nat.zero_le _
  · rw [List.length_drop]
    omega

theorem payload_decFrame_eq_nil {buf : List Byte} {cursor : Nat} (h : (decFrame buf cursor).1.kind ≠ .report) :
    (decFrame buf cursor).1.payload = [] := by
  unfold decFrame wholeFrame reportRecord at h ⊢
  dsimp only at h ⊢
  split_ifs at h ⊢
  · rfl
  · rfl
  · rfl
  · rfl
  · exact absurd rfl h

/-- The frame step gives permitted records. -/
theorem permitted_decFrame (buf : List Byte) (cursor : Nat) : (decFrame buf cursor).1.Permitted :=
  ⟨tagOf_decFrame_mem buf cursor, payload_decFrame_length_le buf cursor, payload_decFrame_eq_nil⟩

/-- How kind and conditions hang together, over the eight permitted pairs. -/
theorem kind_of_mem_permittedTags : ∀ tag ∈ permittedTags,
    (tag.1 = .truncated ↔ hasCondition tag.2 .truncatedFrame = true)
    ∧ (tag.1 = .dropped ↔ hasCondition tag.2 .checksumMismatch = true)
    ∧ (hasCondition tag.2 .unrecognizedPrefix = true → tag.1 = .report) := by decide

theorem kind_wholeFrame_ne_truncated (buf : List Byte) (cursor L : Nat) (cond : CondSet) :
    (wholeFrame buf cursor L cond).kind ≠ .truncated := by
  unfold wholeFrame reportRecord
  dsimp only
  split_ifs <;> simp

/-- A TRUNCATED unit is all that is left. -/
theorem decFrame_next_of_truncated {u : List Byte} (h : (decFrame u 0).1.kind = .truncated) :
    (decFrame u 0).2 = u.length := by
  unfold decFrame at h ⊢
  dsimp only at h ⊢
  split_ifs at h ⊢
  · rfl
  · rfl
  · exact absurd h (kind_wholeFrame_ne_truncated _ _ _ _)

theorem truncated_is_last {start k : Nat} {rest : List Byte} {r : Record}
    (hr : (recordsAt start rest)[k]? = some r) (hkind : r.kind = .truncated) :
    k + 1 = (recordsAt start rest).length := by
  induction start, rest using recordsAt.induct generalizing k with
  | case1 start => simp at hr
  | case2 start rest h ih =>
    rw [recordsAt_of_ne_nil h] at hr ⊢
    cases k with
    | zero =>
      cases hr
      rw [decFrame_next_of_truncated hkind, List.drop_length, recordsAt_nil]
      rfl
    | succ k => exact congrArg (· + 1) (ih hr)

/-- Settles O25: every record is a frame step's, whose pairs of kind and conditions are the eight, and a
TRUNCATED one leaves nothing for another. -/
theorem recordKindFollowsItsConditions : Obligations.RecordKindFollowsItsConditions := by
  unfold Obligations.RecordKindFollowsItsConditions
  intro buf s t h
  refine ⟨fun e he => ?_, fun k e he hkind => ?_⟩
  · obtain ⟨cursor, -, hrecord⟩ := record_eq_decFrame_of_exec_decBuf h he
    rw [hrecord]
    obtain ⟨htag, hlen, hnil⟩ := permitted_decFrame buf cursor
    obtain ⟨htruncated, hdropped, hsubheader⟩ := kind_of_mem_permittedTags _ htag
    exact ⟨htruncated, hdropped, hsubheader, hnil, hlen⟩
  · have hrecords := records_of_exec_decBuf h
    have hrecord : (recordsAt 0 buf)[k]? = some e.record := by rw [← hrecords, List.getElem?_map, he]; rfl
    have hlast := truncated_is_last hrecord hkind
    rwa [← hrecords, List.length_map] at hlast

end Sys2Proof.Proofs
end

section
/-! PROOFS. The statements about particular buffers (42_decoder.md R101, R103, R104, 30_encoding.md R49):
whole frames one after another, one of them damaged, a packet the block sent, a part of a frame; then
DEC.BUF in steps (R91). -/

namespace Sys2Proof.Proofs

open Sys2Proof Sys2Proof.Machine Sys2Proof.Claims

/-! ### Whole units one after another (R103, R104) -/

theorem unitLength_append_of_whole {u : List Byte} (h3 : 3 ≤ u.length) (hwhole : u.length = 3 + (byteAt u 2).toNat)
    (rest : List Byte) : unitLength (u ++ rest) = u.length := by
  have hbyte : byteAt (u ++ rest) 2 = byteAt u 2 := by
    simp only [byteAt, List.getD_eq_getElem?_getD, List.getElem?_append_left (show 2 < u.length by omega)]
  rw [unitLength, hbyte, List.length_append, if_neg (by omega)]
  omega

/-- A whole unit gives its own record, and the rest is decoded from its end on. -/
theorem recordsAt_append_of_whole {u : List Byte} (hwhole : u.length = 3 + (byteAt u 2).toNat) (start : Nat)
    (rest : List Byte) : recordsAt start (u ++ rest)
      = { (decFrame u 0).1 with start := start } :: recordsAt (start + u.length) rest := by
  have hfront : decFrame (u ++ rest) 0 = decFrame u 0 := by
    rw [decFrame_take_unitLength, unitLength_append_of_whole (by omega) hwhole, List.take_left]
  have hnext : (decFrame u 0).2 = u.length := by rw [decFrame_of_whole hwhole rfl, hwhole]
  have hne : u ++ rest ≠ [] := by
    rw [← List.length_pos_iff, List.length_append]
    omega
  rw [recordsAt_of_ne_nil hne, hfront, hnext, List.drop_left]

@[simp] theorem length_validFrame (p : List Byte) : (validFrame p).length = p.length + 7 := by
  rw [validFrame, length_checkedUnit]
  rfl

theorem validFrame_whole {p : List Byte} (h : p.length ≤ 251) :
    (validFrame p).length = 3 + (byteAt (validFrame p) 2).toNat := by
  rw [validFrame, byteAt_two_checkedUnit _ _ (by simp only [List.length_cons]; omega), length_checkedUnit]
  omega

theorem decFrame_validFrame {p : List Byte} (h : p.length ≤ 251) :
    decFrame (validFrame p) 0 = (cleanReport 0 p, p.length + 7) := by
  have hcond : reportCond 0x4C#8 0x54#8 (0x00#8 :: 0x20#8 :: p) = 0#8 := by simp [reportCond]
  rw [validFrame, decFrame_checkedUnit _ _ (by simp only [List.length_cons]; omega), hcond]
  rfl

theorem recordsAt_validFrame_append {p : List Byte} (h : p.length ≤ 251) (start : Nat) (rest : List Byte) :
    recordsAt start (validFrame p ++ rest) = cleanReport start p :: recordsAt (start + (p.length + 7)) rest := by
  rw [recordsAt_append_of_whole (validFrame_whole h), decFrame_validFrame h, length_validFrame]
  rfl

theorem recordsAt_validFrames_append {ps : List (List Byte)} (h : ∀ p ∈ ps, p.length ≤ 251) (start : Nat)
    (rest : List Byte) : recordsAt start (ps.flatMap validFrame ++ rest)
      = cleanReports start ps ++ recordsAt (start + (ps.flatMap validFrame).length) rest := by
  induction ps generalizing start with
  | nil => rfl
  | cons p ps ih =>
    obtain ⟨hp, hps⟩ := List.forall_mem_cons.1 h
    rw [List.flatMap_cons, List.append_assoc, recordsAt_validFrame_append hp, ih hps, List.length_append,
      length_validFrame, Nat.add_assoc]
    rfl

theorem recordsAt_validFrames {ps : List (List Byte)} (h : ∀ p ∈ ps, p.length ≤ 251) (start : Nat) :
    recordsAt start (ps.flatMap validFrame) = cleanReports start ps := by
  have hall := recordsAt_validFrames_append h start []
  rwa [List.append_nil, recordsAt_nil, List.append_nil] at hall

/-- Clean reports apply their payloads in order, with HAS_DSP. -/
theorem foldl_afterRecord_cleanReports (p : Params) (start : Nat) (ps : List (List Byte)) (st : DeviceState) :
    (cleanReports start ps).foldl (afterRecord p) st = if p.hasDsp then applyAll p.gateMask ps st else st := by
  induction ps generalizing start st with
  | nil => simp [cleanReports, applyAll]
  | cons q qs ih =>
    rw [cleanReports, List.foldl_cons, ih]
    cases hdsp : p.hasDsp <;> simp [afterRecord, cleanReport, applyAll, hdsp]

/-- Settles O26: the records of the buffer are the frames' own, and emitting them applies them. -/
theorem concatenatedFramesDecodeInOrder : Obligations.ConcatenatedFramesDecodeInOrder := by
  unfold Obligations.ConcatenatedFramesDecodeInOrder
  intro ps s hps hidle haccepts
  have h := exec_decBuf_eq_foldl hidle haccepts
  refine ⟨_, h, ?_, ?_⟩
  · rw [records_of_exec_decBuf h, recordsAt_validFrames hps]
  · rw [st_of_exec_decBuf h, recordsAt_validFrames hps, foldl_afterRecord_cleanReports]

/-! ### One damaged frame (R104) -/

theorem byteAt_two_set {k : Nat} (hk : k ≠ 2) (u : List Byte) (b : Byte) : byteAt (u.set k b) 2 = byteAt u 2 := by
  rw [byteAt, byteAt, List.getD_eq_getElem?_getD, List.getD_eq_getElem?_getD, List.getElem?_set_ne hk]

/-- One changed byte moves the remainder of a frame off zero. -/
theorem crc16_set_validFrame_ne_zero {p : List Byte} {k : Nat} {b : Byte} (hk : k < (validFrame p).length)
    (hb : (validFrame p)[k]? ≠ some b) : crc16 ((validFrame p).set k b) ≠ 0x0000#16 := by
  have hzero : crc16 (validFrame p) = 0x0000#16 := (crc16_append_eq_zero_iff _ _ (length_checksum _)).2 rfl
  have hne : (validFrame p)[k] ≠ b := fun heq => hb (by rw [List.getElem?_eq_getElem hk, heq])
  have hsplit : (validFrame p).take k ++ (validFrame p)[k] :: (validFrame p).drop (k + 1) = validFrame p := by
    rw [List.getElem_cons_drop, List.take_append_drop]
  have hchanged := oneChangedByteChangesTheCrc ((validFrame p).take k) ((validFrame p).drop (k + 1)) _ _ hne
  rw [hsplit, hzero] at hchanged
  rw [List.set_eq_take_append_cons_drop, if_pos hk]
  exact hchanged.symm

theorem magicCond_set_validFrame {p : List Byte} {k : Nat} {b : Byte} (hk : k < (validFrame p).length)
    (hb : (validFrame p)[k]? ≠ some b) :
    magicCond ((validFrame p).set k b) = if k < 2 then only .headerMismatch else 0#8 := by
  have hframe : (validFrame p).take 2 = [0x4C#8, 0x54#8] := rfl
  rw [magicCond]
  match k, hk, hb with
  | 0, _, hb =>
    have hne : b ≠ 0x4C#8 := fun h => hb (by rw [h]; rfl)
    exact if_neg fun h => hne (List.cons.inj h).1
  | 1, _, hb =>
    have hne : b ≠ 0x54#8 := fun h => hb (by rw [h]; rfl)
    exact if_neg fun h => hne (List.cons.inj (List.cons.inj h).2).1
  | k + 2, _, _ =>
    rw [if_pos (by rw [List.take_set_of_le (by omega), hframe]), if_neg (by omega)]

/-- The frame step on a damaged frame whose length byte stands. -/
theorem decFrame_damaged {p : List Byte} {k : Nat} {b : Byte} (hp : p.length ≤ 251) (hk : k < (validFrame p).length)
    (hk2 : k ≠ 2) (hb : (validFrame p)[k]? ≠ some b) :
    decFrame ((validFrame p).set k b) 0
      = ({ kind := .dropped, cond := (if k < 2 then only .headerMismatch else 0#8) ||| only .checksumMismatch,
           start := 0, flen := p.length + 7, payload := [] }, p.length + 7) := by
  have hlen : ((validFrame p).set k b).length = p.length + 7 := by rw [List.length_set, length_validFrame]
  have hwhole : ((validFrame p).set k b).length = 3 + (byteAt ((validFrame p).set k b) 2).toNat := by
    rw [byteAt_two_set hk2, List.length_set, validFrame_whole hp]
  have hsum : ((validFrame p).set k b).drop (((validFrame p).set k b).length - 2)
      ≠ checksum (((validFrame p).set k b).take (((validFrame p).set k b).length - 2)) := by
    rw [Ne, ← crc16_append_eq_zero_iff _ _ (by rw [List.length_drop]; omega), List.take_append_drop]
    exact crc16_set_validFrame_ne_zero hk hb
  rw [decFrame_of_wrong_checksum hwhole (by omega) hsum, magicCond_set_validFrame hk hb, hlen]

/-- Settles O27: the damaged frame is still one whole unit, which the checksum drops; before and after it
stand whole valid frames. -/
theorem aDamagedFrameIsDroppedAlone : Obligations.ADamagedFrameIsDroppedAlone := by
  unfold Obligations.ADamagedFrameIsDroppedAlone
  intro ps qs p k b s hall hk hk2 hb hidle buf at1 haccepts
  obtain ⟨hps, hrest⟩ := List.forall_mem_append.1 hall
  obtain ⟨hp, hqs⟩ := List.forall_mem_cons.1 hrest
  have hwhole : ((validFrame p).set k b).length = 3 + (byteAt ((validFrame p).set k b) 2).toNat := by
    rw [byteAt_two_set hk2, List.length_set, validFrame_whole hp]
  have hbuf : buf = ps.flatMap validFrame ++ ((validFrame p).set k b ++ qs.flatMap validFrame) :=
    List.append_assoc _ _ _
  have hrecords : recordsAt 0 buf = cleanReports 0 ps
      ++ { kind := .dropped, cond := (if k < 2 then only .headerMismatch else 0#8) ||| only .checksumMismatch,
           start := at1, flen := p.length + 7, payload := [] }
        :: cleanReports (at1 + (p.length + 7)) qs := by
    rw [hbuf, recordsAt_validFrames_append hps, recordsAt_append_of_whole hwhole,
      decFrame_damaged hp hk hk2 hb, List.length_set, length_validFrame, recordsAt_validFrames hqs, Nat.zero_add]
  have h := exec_decBuf_eq_foldl hidle haccepts
  refine ⟨_, h, by rw [records_of_exec_decBuf h, hrecords], ?_⟩
  rw [st_of_exec_decBuf h, hrecords, List.foldl_append, List.foldl_cons, foldl_afterRecord_cleanReports,
    foldl_afterRecord_cleanReports]
  cases hdsp : s.params.hasDsp <;> simp [afterRecord, applyAll, hdsp]

/-! ### What the encoder sent, fed back (30_encoding.md R49) -/

theorem checkedCommand_eq_validFrame (sub v : Byte) :
    checkedCommand sub v = validFrame [0x57#8, 0x00#8, sub, 0x01#8, v] := rfl

/-- The record of a buffer that is one whole unit. -/
theorem recordsAt_of_whole {u : List Byte} (hwhole : u.length = 3 + (byteAt u 2).toNat) :
    recordsAt 0 u = [{ (decFrame u 0).1 with start := 0 }] := by
  have hone := recordsAt_append_of_whole hwhole 0 []
  rwa [List.append_nil, recordsAt_nil] at hone

theorem recordsAt_checkedCommand (sub v : Byte) :
    recordsAt 0 (checkedCommand sub v) = [cleanReport 0 [0x57#8, 0x00#8, sub, 0x01#8, v]] := by
  rw [checkedCommand_eq_validFrame, recordsAt_of_whole (validFrame_whole (by simp)), decFrame_validFrame (by simp)]
  rfl

theorem recordsAt_queryUnit : recordsAt 0 queryUnit
    = [{ kind := .report, cond := only .unrecognizedPrefix, start := 0, flen := 12,
         payload := [0x53#8, 0x00#8, 0x00#8, 0x01#8, 0x00#8] }] := by
  rw [recordsAt_of_whole rfl, queryUnit_eq_checkedUnit, decFrame_checkedUnit _ _ (by simp), reportCond_query]
  rfl

/-- TX holds a packet after ENC.CMD only where the operand fits a byte. -/
theorem tx_of_exec_encCmd_eq_some {sub : Byte} {v : Half} {s t : State} {p : List Byte}
    (h : exec (.encCmd sub v) s = .next t) (htx : t.ports.tx = some p) :
    (byteOf v).toInt = v.toInt ∧ p = checkedCommand sub (byteOf v) := by
  have hfits : fitsByte v = true := by
    by_contra hout
    rw [exec_encCmd, encodeCommand, if_neg hout] at h
    obtain ⟨-, rfl⟩ := hostOp_next_eq_next.1 h
    cases htx
  obtain ⟨hlow, hhigh⟩ := fitsByte_iff.1 hfits
  rw [tx_of_exec_encCmd hfits h] at htx
  exact ⟨toInt_byteOf hlow hhigh, (Option.some.inj htx).symm⟩

theorem tx_of_exec_encQry {s t : State} (h : exec .encQry s = .next t) : t.ports.tx = some queryUnit := by
  obtain ⟨-, rfl⟩ := hostOp_next_eq_next.1 h
  rw [sendPacket_ports, queryPacket_eq_queryUnit]

/-- Settles O22: the packets are checked units; their one record is a report no category recognises. -/
theorem sentPacketsDecodeAsEchoes : Obligations.SentPacketsDecodeAsEchoes := by
  unfold Obligations.SentPacketsDecodeAsEchoes
  refine ⟨fun sub v s t u w p hencode htx hdecode => ?_, fun s t u w p hencode htx hdecode => ?_⟩
  · obtain ⟨hvalue, rfl⟩ := tx_of_exec_encCmd_eq_some hencode htx
    refine ⟨byteOf v, hvalue, ?_, ?_⟩
    · rw [records_of_exec_decBuf hdecode, recordsAt_checkedCommand]
      rfl
    · rw [st_of_exec_decBuf hdecode, recordsAt_checkedCommand]
      simp [afterRecord, cleanReport, dspApply_command]
  · rw [tx_of_exec_encQry hencode] at htx
    cases htx
    refine ⟨by rw [records_of_exec_decBuf hdecode, recordsAt_queryUnit], ?_⟩
    rw [st_of_exec_decBuf hdecode, recordsAt_queryUnit]
    simp [afterRecord, dspApply_query]

/-! ### No carry-over (R101) -/

/-- The beginning of a frame is a unit cut off, with the right magic as far as it goes. -/
theorem decFrame_take_validFrame {p : List Byte} {k : Nat} (hp : p.length ≤ 251) (hk : k < (validFrame p).length) :
    decFrame ((validFrame p).take k) 0
      = ({ kind := .truncated, cond := only .truncatedFrame, start := 0, flen := k, payload := [] }, k) := by
  have hlen : ((validFrame p).take k).length = k := List.length_take_of_le hk.le
  by_cases h3 : k < 3
  · rw [decFrame_of_length_lt_three (by omega), hlen]
  · have hbyte : byteAt ((validFrame p).take k) 2 = byteAt (validFrame p) 2 := by
      simp only [byteAt, List.getD_eq_getElem?_getD, List.getElem?_take_of_lt (show 2 < k by omega)]
    have hmagic : magicCond ((validFrame p).take k) = 0#8 := by
      rw [magicCond, List.take_take, min_eq_left (by omega)]
      exact if_pos rfl
    have hcut : ((validFrame p).take k).length < 3 + (byteAt ((validFrame p).take k) 2).toNat := by
      rw [hbyte, ← validFrame_whole hp, hlen]
      exact hk
    rw [decFrame_of_cut_off (by omega) hcut, hmagic, hlen, BitVec.zero_or]

theorem recordsAt_take_validFrame {p : List Byte} {k : Nat} (hp : p.length ≤ 251) (hpos : 0 < k)
    (hk : k < (validFrame p).length) : recordsAt 0 ((validFrame p).take k)
      = [{ kind := .truncated, cond := only .truncatedFrame, start := 0, flen := k, payload := [] }] := by
  have hlen : ((validFrame p).take k).length = k := List.length_take_of_le hk.le
  rw [recordsAt_of_ne_nil (List.length_pos_iff.1 (by omega)), decFrame_take_validFrame hp hk,
    List.drop_of_length_le hlen.le, recordsAt_nil]

/-- Settles O28: a part of a frame is one cut-off unit; and what a DEC.BUF emits, from empty ports,
depends on the parameters and Device State. -/
theorem nothingIsCarriedOverBetweenBuffers : Obligations.NothingIsCarriedOverBetweenBuffers := by
  unfold Obligations.NothingIsCarriedOverBetweenBuffers
  refine ⟨fun p k s hp hpos hk hidle haccepts => ?_, fun buf s s' t hidle hidle' hparams hst h => ?_⟩
  · have hlen : ((validFrame p).take k).length = k := List.length_take_of_le hk.le
    refine ⟨_, exec_decBuf_eq_foldl hidle (by rw [hlen]; exact haccepts), ?_⟩
    rw [recordsAt_take_validFrame hp hpos hk, List.foldl_cons, List.foldl_nil, emitNext,
      emit_of_kind_ne_report (by simp)]
    exact ⟨rfl, rfl⟩
  · obtain ⟨-, haccepts, -⟩ := exec_decBuf_eq_next.1 h
    rw [eq_foldl_of_exec_decBuf h]
    exact ⟨_, exec_decBuf_eq_foldl hidle' (hparams ▸ haccepts),
      foldl_emitNext_congr _ (s := startDecode buf s) (s' := startDecode buf s') hparams hst rfl⟩

/-! ### DEC.BUF in steps (R91, 00_scope.md R6) -/

/-- While bytes are left and no request waits, a step is one pass of the loop. -/
theorem step_eq_frameStep {s : State} (hpending : s.pending = []) (hreport : s.report = none)
    (hcursor : s.cursor < s.rx.length) : step s = .next (frameStep s) := by
  have hne : s.rx.drop s.cursor ≠ [] := by simpa using hcursor
  rw [step_of_decode (fetch_unit (by simp [hpending]) hreport hcursor) (if_neg hne), exec_classifyUnit,
    ← frameStep_eq_unitStep hcursor.le]

theorem run_core_eq_decodeLoop (n : Nat) {s : State} (hpending : s.pending = []) (hreport : s.report = none) :
    Host.Core.run Sys2Proof.core n s = .next (decodeLoop n s) := by
  induction n generalizing s with
  | zero => rfl
  | succ n ih =>
    rw [decodeLoop]
    split
    case isTrue hlt =>
      rw [run_succ n (M := Sys2Proof.core) (step_eq_frameStep hpending hreport hlt)]
      exact ih (by simpa [frameStep] using hpending) (by simpa [frameStep] using hreport)
    case isFalse hge =>
      have hstill : decodeLoop n s = s := by
        cases n with
        | zero => rfl
        | succ n => exact if_neg hge
      rw [run_succ n (M := Sys2Proof.core) (step_of_fetch_idle (fetch_idle (busy_eq_false.2 ⟨hreport, hge⟩) hpending)),
        ih hpending hreport, hstill]

/-- Settles O29: the run of steps is the loop, pass by pass, and stands still past its end. -/
theorem decBufIsItsFrameSteps : Obligations.DecBufIsItsFrameSteps := by
  unfold Obligations.DecBufIsItsFrameSteps
  intro buf s hidle hpending haccepts
  obtain ⟨hreport, -⟩ := busy_eq_false.1 hidle
  rw [run_core_eq_decodeLoop _ (by exact hpending) (by exact hreport), exec_decBuf_eq_next.2 ⟨hidle, haccepts, rfl⟩]
  rfl

end Sys2Proof.Proofs
end

section
/-! PROOFS. The statements about the State Dispatcher (43_dispatch.md): what DSP.APPLY does with each form
of a payload, that a report unit answers the same, what ST.RD delivers, and the view `mired`. -/

namespace Sys2Proof.Proofs

open Sys2Proof Sys2Proof.Machine

/-! ### The forms of a payload (R107, R108, R116) -/

theorem applyReport_nil (st : DeviceState) : applyReport [] st = (only .unrecognizedCategory, st) := rfl

theorem applyReport_update_category (rest : List Byte) (st : DeviceState) :
    applyReport (0x02#8 :: rest) st
      = if rest.length + 1 < 3 then (only .shortReport, st) else applyUpdate (byteAt rest 0) (byteAt rest 1) st := rfl

theorem applyReport_snapshot_category (rest : List Byte) (st : DeviceState) :
    applyReport (0x03#8 :: rest) st
      = if rest.length + 1 < 5 then (only .shortReport, st)
        else (noConditions, st.writeSnapshot (byteAt rest 0) (byteAt rest 2) (byteAt rest 3)) := rfl

theorem applyReport_update (k v : Byte) (more : List Byte) (st : DeviceState) :
    applyReport (0x02#8 :: k :: v :: more) st = applyUpdate k v st := by
  rw [applyReport_update_category, if_neg (by simp)]
  rfl

theorem applyReport_snapshot (p u b t : Byte) (more : List Byte) (st : DeviceState) :
    applyReport (0x03#8 :: p :: u :: b :: t :: more) st = (noConditions, st.writeSnapshot p b t) := by
  rw [applyReport_snapshot_category, if_neg (by simp)]
  rfl

theorem applyReport_short_update {rest : List Byte} (h : rest.length + 1 < 3) (st : DeviceState) :
    applyReport (0x02#8 :: rest) st = (only .shortReport, st) := by
  rw [applyReport_update_category, if_pos h]

theorem applyReport_short_snapshot {rest : List Byte} (h : rest.length + 1 < 5) (st : DeviceState) :
    applyReport (0x03#8 :: rest) st = (only .shortReport, st) := by
  rw [applyReport_snapshot_category, if_pos h]

/-- The keys are the subcommands (R7). -/
theorem applyUpdate_eq (k v : Byte) (st : DeviceState) : applyUpdate k v st
    = if k = 0x00#8 then (noConditions, st.writeOn v)
      else if k = 0x02#8 then (noConditions, st.writeBrightness v)
      else if k = 0x03#8 then (noConditions, st.writeTempCode v)
      else (only .unrecognizedKey, st) := rfl

theorem applyUpdate_of_not_named {k : Byte} (h : WellFormed.isNamedCode k = false) (v : Byte) (st : DeviceState) :
    applyUpdate k v st = (only .unrecognizedKey, st) := by
  obtain ⟨h0, h2, h3⟩ := isNamedCode_eq_false.1 h
  rw [applyUpdate_eq, if_neg h0, if_neg h2, if_neg h3]

theorem dspApply_of_not_gated {gate dc : CondSet} (h : dc &&& gate = 0#8) (p : List Byte) (st : DeviceState) :
    dspApply gate p dc st = applyReport p st := by
  simp [dspApply, gated, h]

theorem dspApply_of_gated {gate dc : CondSet} (h : dc &&& gate ≠ 0#8) (p : List Byte) (st : DeviceState) :
    dspApply gate p dc st = (noConditions, st) := by
  simp [dspApply, gated, h]

/-- A payload within its space, with nothing in progress and HAS_DSP, is answered. -/
theorem exec_dspApply_idle {p : List Byte} {s : State} (hidle : s.busy = false) (hdsp : s.params.hasDsp = true)
    (hp : p.length ≤ 251) (dc : CondSet) :
    exec (.dspApply p dc) s = .next (answer (dspApply s.params.gateMask p dc s.st) s) :=
  execDspApply_eq_next.2 ⟨hidle, hdsp, hp, rfl⟩

/-- Payloads within the space that are dispatched alike are answered alike, in every state. -/
theorem exec_dspApply_congr {p p' : List Byte} (hp : p.length ≤ 251) (hp' : p'.length ≤ 251)
    (h : ∀ st, applyReport p st = applyReport p' st) (dc : CondSet) (s : State) :
    exec (.dspApply p dc) s = exec (.dspApply p' dc) s := by
  rw [exec_dspApply, exec_dspApply, if_pos (fitsPayload_iff.2 hp), if_pos (fitsPayload_iff.2 hp'), dspApply,
    dspApply, h]

/-- An answer that leaves Device State changes only the ports. -/
theorem answer_same (c : CondSet) (s : State) :
    answer (c, s.st) s = { s with ports := { res := some (.conds c) } } := rfl

/-! ### The report units -/

theorem exec_report_present {i : Instr} (hi : i.space = .report) {s : State} (hdsp : s.params.hasDsp = true) :
    exec i s = .next (answer (reportAnswer s.st i) s) := by
  rw [exec_of_space_report hi, whenDsp_present hdsp]

theorem reportAnswer_classifyUpdate (k v : Byte) (st : DeviceState) :
    reportAnswer st (classifyUpdate k v) = applyUpdate k v st := by
  rw [classifyUpdate, applyUpdate_eq]
  split_ifs with h0 h2 h3
  · rfl
  · rfl
  · rfl
  · exact applyUpdate_of_not_named (isNamedCode_eq_false.2 ⟨h0, h2, h3⟩) v st

/-- The unit a payload holds answers what DSP.APPLY past its gate does. -/
theorem reportAnswer_of_decodeReport {p : List Byte} {i : Instr} (h : decodeReport p = .ok i) (st : DeviceState) :
    reportAnswer st i = applyReport p st := by
  obtain ⟨k, v, more, rfl, rfl⟩ | ⟨w, u, b, t, more, rfl, rfl⟩ | ⟨g, more, rfl, h2, h3, rfl⟩ :=
    decodeReport_eq_ok h
  · rw [reportAnswer_classifyUpdate, applyReport_update]
  · rw [applyReport_snapshot]
    rfl
  · rw [applyReport_other h2 h3]
    rfl

/-- Settles O33: past the gate, DSP.APPLY and the unit its payload holds give one answer. -/
theorem dspApplyRunsTheReportUnit : Obligations.DspApplyRunsTheReportUnit := by
  unfold Obligations.DspApplyRunsTheReportUnit
  intro p dc s i hidle hdsp hgate hdecode
  obtain ⟨-, hspace, -⟩ := decodePayload_eq_ok_spec hdecode
  obtain ⟨hp, hreport⟩ := decodePayload_eq_ok.1 hdecode
  have happly : exec (.dspApply p dc) s = exec i s := by
    rw [exec_dspApply_idle hidle hdsp hp, exec_report_present hspace hdsp, dspApply_of_not_gated hgate,
      reportAnswer_of_decodeReport hreport]
  exact ⟨happly, _, happly.trans (exec_report_present hspace hdsp)⟩

/-- Settles O34: one answer for each form of a payload, and the fields of a long one are those of its
front. -/
theorem gatedShortAndLongPayloads : Obligations.GatedShortAndLongPayloads := by
  unfold Obligations.GatedShortAndLongPayloads
  refine ⟨fun p dc s hidle hdsp hp hgate => ?_, fun dc s hidle hdsp hgate => ?_,
    fun rest dc s hidle hdsp hgate hshort => ?_, fun rest dc s hidle hdsp hgate hshort => ?_,
    fun k v more dc s hlen => ?_, fun p u b t more dc s hlen => ?_⟩
  · rw [exec_dspApply_idle hidle hdsp hp, dspApply_of_gated hgate, answer_same]
    rfl
  · rw [exec_dspApply_idle hidle hdsp (by simp), dspApply_of_not_gated hgate, applyReport_nil, answer_same]
  · rw [exec_dspApply_idle hidle hdsp (by rw [List.length_cons]; omega), dspApply_of_not_gated hgate,
      applyReport_short_update hshort, answer_same]
  · rw [exec_dspApply_idle hidle hdsp (by rw [List.length_cons]; omega), dspApply_of_not_gated hgate,
      applyReport_short_snapshot hshort, answer_same]
  · refine exec_dspApply_congr ?_ (by simp) (fun st => ?_) dc s
    · simpa only [List.length_cons] using hlen
    · rw [applyReport_update, applyReport_update]
  · refine exec_dspApply_congr ?_ (by simp) (fun st => ?_) dc s
    · simpa only [List.length_cons] using hlen
    · rw [applyReport_snapshot, applyReport_snapshot]

/-! ### The view `mired` (10_state.md R20) -/

theorem mired_eq_some {s : State} {q : Rat} : s.mired = some q ↔
    s.params.hasDsp = true ∧ s.st.tempCodeV = true ∧ s.st.tempCode.toInt ≠ 0
      ∧ q = 10000 / (s.st.tempCode.toInt : Rat) := by
  simp [State.mired, s8, and_assoc, eq_comm (a := q)]

theorem toInt_eq_zero_iff {v : Byte} : v.toInt = 0 ↔ v = 0x00#8 := BitVec.toInt_inj (y := 0#8)

theorem toInt_eq_one_iff {v : Byte} : v.toInt = 1 ↔ v = 0x01#8 := BitVec.toInt_inj (y := 1#8)

/-- The view of a valid code. -/
theorem mired_of_valid {s : State} (hdsp : s.params.hasDsp = true) (hvalid : s.st.tempCodeV = true) :
    s.mired = if s.st.tempCode = 0x00#8 then none else some (10000 / (s.st.tempCode.toInt : Rat)) := by
  simp only [State.mired, hdsp, hvalid, s8, ne_eq, toInt_eq_zero_iff]
  by_cases h : s.st.tempCode = 0x00#8 <;> simp [h]

/-- Settles O36: the view is the quotient, which is exact; a quotient of a fixed positive number falls as
the code rises. -/
theorem miredIsTheExactQuotient : Obligations.MiredIsTheExactQuotient := by
  unfold Obligations.MiredIsTheExactQuotient
  refine ⟨fun s q hdsp => ?_, fun s q hq hlow hhigh => ?_, fun s => ?_⟩
  · rw [mired_eq_some]
    simp only [hdsp, true_and]
    refine and_congr_right fun _ => and_congr_right fun hcode => ?_
    exact eq_div_iff (by exact_mod_cast hcode)
  · obtain ⟨-, -, -, rfl⟩ := mired_eq_some.1 hq
    have hlow' : (32 : Rat) ≤ s.st.tempCode.toInt := by exact_mod_cast hlow
    have hhigh' : (s.st.tempCode.toInt : Rat) ≤ 56 := by exact_mod_cast hhigh
    exact ⟨div_le_div_of_nonneg_left (by norm_num) (by linarith) hhigh',
      div_le_div_of_nonneg_left (by norm_num) (by norm_num) hlow'⟩
  · unfold State.readMired
    cases s.mired <;> simp

/-! ### Units one by one (R109 to R114) -/

theorem writeOn_eq (st : DeviceState) (v : Byte) : st.writeOn v = { st with on := v = 0x01#8, onV := true } := by
  simp only [DeviceState.writeOn, s8, toInt_eq_one_iff]

/-- Settles O30: each update is one write of the Device State, delivered with no condition. -/
theorem updateUnitsWriteTheirOwnField : Obligations.UpdateUnitsWriteTheirOwnField := by
  unfold Obligations.UpdateUnitsWriteTheirOwnField
  refine ⟨fun v => rfl, fun v => rfl, fun v => rfl, fun v s hdsp => ?_, fun v s hdsp => ?_, fun v s hdsp => ?_⟩
  · rw [exec_report_present rfl hdsp, reportAnswer, writeOn_eq]
    rfl
  · rw [exec_report_present rfl hdsp]
    rfl
  · exact ⟨_, exec_report_present rfl hdsp, rfl, mired_of_valid hdsp rfl⟩

theorem writeSnapshot_eq (st : DeviceState) (p b t : Byte) : st.writeSnapshot p b t
    = { on := p = 0x01#8, onV := true, brightness := b, brightnessV := true, tempCode := t, tempCodeV := true } := by
  rw [DeviceState.writeSnapshot, writeOn_eq]
  rfl

/-- Settles O31: a snapshot is the three writes in one. -/
theorem snapshotWritesAllThreeFields : Obligations.SnapshotWritesAllThreeFields := by
  unfold Obligations.SnapshotWritesAllThreeFields
  have hexec (p u b t : Byte) (s : State) (hdsp : s.params.hasDsp = true) :
      exec (.rptSnap p u b t) s = .next (answer (noConditions, s.st.writeSnapshot p b t) s) :=
    exec_report_present rfl hdsp
  refine ⟨fun p u b t => rfl, fun p u b t s hdsp => ?_, fun p u b t s n hdsp h => ?_⟩
  · rw [hexec p u b t s hdsp, writeSnapshot_eq]
    rfl
  · rw [hexec p u b t s hdsp] at h
    cases h
    exact mired_of_valid hdsp rfl

/-- Settles O32: other keys and other categories answer their condition and the Device State they found. -/
theorem unrecognisedReportsChangeNothing : Obligations.UnrecognisedReportsChangeNothing := by
  unfold Obligations.UnrecognisedReportsChangeNothing
  refine ⟨fun k v s hdsp h0 h2 h3 => ?_, fun g rest s hdsp h2 h3 hlen => ?_⟩
  · have hk : WellFormed.isNamedCode k = false := isNamedCode_eq_false.2 ⟨h0, h2, h3⟩
    have hdecode : decodeReport [0x02#8, k, v] = .ok (.rptUpdOther k v) := by
      rw [decodeReport_update, classifyUpdate_of_not_named hk]
    refine ⟨decodePayload_of_decodeReport (by simp) hdecode, ?_⟩
    rw [exec_report_present rfl hdsp, reportAnswer_of_decodeReport hdecode, applyReport_update,
      applyUpdate_of_not_named hk, answer_same]
  · have hdecode : decodeReport (g :: rest) = .ok (.rptOther g) := decodeReport_other h2 h3 rest
    refine ⟨decodePayload_of_decodeReport hlen hdecode, ?_⟩
    rw [exec_report_present rfl hdsp, reportAnswer_of_decodeReport hdecode, applyReport_other h2 h3, answer_same]

/-! ### The getters (R115) -/

theorem exec_stRd_idle {s : State} (hidle : s.busy = false) (hdsp : s.params.hasDsp = true) (sel : Selector) :
    exec (.stRd sel) s = .next (readOut sel s) := exec_stRd_eq_next.2 ⟨hidle, hdsp, rfl⟩

theorem decodeSelector_reserved {sel : Byte} (h : 3 ≤ sel.toNat) :
    decodeSelector sel = .error (.reservedSelector sel) := by
  rw [decodeSelector, if_neg, if_neg, if_neg] <;> rintro rfl <;> simp at h

/-- Settles O35: the read is the valid bit and, where it is 1, the register the selector names. -/
theorem stRdReturnsValidBitAndRegister : Obligations.StRdReturnsValidBitAndRegister := by
  unfold Obligations.StRdReturnsValidBitAndRegister
  refine ⟨rfl, rfl, rfl, fun sel h => decodeSelector_reserved h, fun sel valid data s hidle hdsp hnamed => ?_⟩
  have hread : (valid, data) = (validBit s.st sel, valueRegister s.st sel) := by
    rw [hnamed]
    cases sel <;> rfl
  obtain ⟨rfl, rfl⟩ := Prod.mk.inj hread
  obtain ⟨d, draws, hout, hd⟩ := readOut_eq sel s
  exact ⟨_, d, exec_stRd_idle hidle hdsp sel, by rw [hout]; rfl, hd⟩

end Sys2Proof.Proofs
end

section
/-! PROOFS. What no instruction and no step touches (10_state.md R15, R18, R28, 20_memory.md R31, R41,
43_dispatch.md R117): parameters, the device number, RX, the CRC register, Device State. -/

namespace Sys2Proof.Proofs

open Sys2Proof Sys2Proof.Machine

/-! ### Fields an instruction leaves -/

theorem decodeLoop_eq_withEmitted (n : Nat) (s : State) :
    ∃ cursor st records, decodeLoop n s = withEmitted s cursor st records := by
  induction n generalizing s with
  | zero => exact ⟨s.cursor, s.st, s.ports.records, rfl⟩
  | succ n ih =>
    rw [decodeLoop]
    split
    · obtain ⟨st, records, hemit⟩ := emit_eq_withEmitted (decFrame s.rx s.cursor).1 (decFrame s.rx s.cursor).2 s
      rw [frameStep, hemit]
      exact ih _
    · exact ⟨s.cursor, s.st, s.ports.records, rfl⟩

/-- No instruction touches the parameters, the payload space, the requests or the device number. -/
theorem exec_keeps {i : Instr} {s t : State} (h : exec i s = .next t) :
    t.params = s.params ∧ t.report = s.report ∧ t.pending = s.pending ∧ t.device = s.device := by
  cases answered_of_exec h with
  | decBuf buf =>
    obtain ⟨_, _, _, hloop⟩ := decodeLoop_eq_withEmitted buf.length (startDecode buf s)
    rw [hloop]
    exact ⟨rfl, rfl, rfl, rfl⟩
  | stRd sel =>
    obtain ⟨_, _, hread, -⟩ := readOut_eq sel s
    rw [hread]
    exact ⟨rfl, rfl, rfl, rfl⟩
  | wire i hi => simp [unitStep]
  | _ => exact ⟨rfl, rfl, rfl, rfl⟩

/-- Only CRC.CLR and CRC.UPD write the CRC register. -/
theorem exec_keeps_crc {i : Instr} {s t : State} (h : exec i s = .next t) (hclr : i ≠ .crcClr)
    (hupd : ∀ b, i ≠ .crcUpd b) : t.crc = s.crc := by
  cases answered_of_exec h with
  | crcClr => exact absurd rfl hclr
  | crcUpd b => exact absurd rfl (hupd b)
  | decBuf buf =>
    obtain ⟨_, _, _, hloop⟩ := decodeLoop_eq_withEmitted buf.length (startDecode buf s)
    rw [hloop]
    rfl
  | stRd sel =>
    obtain ⟨_, _, hread, -⟩ := readOut_eq sel s
    rw [hread]
    rfl
  | wire i hi => simp [unitStep]
  | _ => rfl

/-- Only DEC.BUF writes RX. -/
theorem exec_keeps_rx {i : Instr} {s t : State} (h : exec i s = .next t) (hbuf : ∀ b, i ≠ .decBuf b) :
    t.rx = s.rx := by
  cases answered_of_exec h with
  | decBuf buf => exact absurd rfl (hbuf buf)
  | stRd sel =>
    obtain ⟨_, _, hread, -⟩ := readOut_eq sel s
    rw [hread]
    rfl
  | wire i hi => simp [unitStep]
  | _ => rfl

/-! ### Fields an instruction does not read -/

/-- The state with other values in the CRC register and the requests. -/
def withHost (c : Half) (pending : List HostRequest) (s : State) : State := { s with crc := c, pending := pending }

section
variable (c : Half) (pending : List HostRequest)

theorem emit_withHost (r : Record) (n : Nat) (s : State) :
    emit r n (withHost c pending s) = withHost c pending (emit r n s) := by
  unfold emit
  rw [show (withHost c pending s).params = s.params from rfl]
  split <;> rfl

theorem decodeLoop_withHost (n : Nat) (s : State) :
    decodeLoop n (withHost c pending s) = withHost c pending (decodeLoop n s) := by
  induction n generalizing s with
  | zero => rfl
  | succ n ih =>
    have hframe : frameStep (withHost c pending s) = withHost c pending (frameStep s) := emit_withHost c pending _ _ s
    rw [decodeLoop, decodeLoop, hframe, ih, show (withHost c pending s).cursor = s.cursor from rfl,
      show (withHost c pending s).rx = s.rx from rfl]
    split <;> rfl

theorem readOut_withHost (sel : Selector) (s : State) :
    readOut sel (withHost c pending s) = withHost c pending (readOut sel s) := by
  unfold readOut
  rw [show (withHost c pending s).st = s.st from rfl]
  split <;> rfl

/-- But for the three operations on the CRC register, an instruction reads neither it nor the requests. -/
theorem exec_withHost {i : Instr} {s t : State} (h : exec i s = .next t) (hclr : i ≠ .crcClr)
    (hupd : ∀ b, i ≠ .crcUpd b) (hrd : i ≠ .crcRd) :
    exec i (withHost c pending s) = .next (withHost c pending t) := by
  induction i using familyCases with
  | crcClr => exact absurd rfl hclr
  | crcUpd b => exact absurd rfl (hupd b)
  | crcRd => exact absurd rfl hrd
  | crcSum l =>
    obtain ⟨hidle, rfl⟩ := hostOp_next_eq_next.1 h
    exact hostOp_idle (s := withHost c pending s) hidle _
  | encode i hi =>
    obtain ⟨hidle, rfl⟩ := hostOp_next_eq_next.1 (exec_of_isEncode hi s ▸ h)
    exact exec_of_isEncode_idle hi (s := withHost c pending s) hidle
  | decBuf buf =>
    obtain ⟨hidle, haccepts, rfl⟩ := exec_decBuf_eq_next.1 h
    exact exec_decBuf_eq_next.2 ⟨hidle, haccepts, decodeLoop_withHost c pending _ (startDecode buf s)⟩
  | dspApply p dc =>
    obtain ⟨hidle, hdsp, hp, rfl⟩ := execDspApply_eq_next.1 h
    exact execDspApply_eq_next.2 ⟨hidle, hdsp, hp, rfl⟩
  | stRd sel =>
    obtain ⟨hidle, hdsp, rfl⟩ := exec_stRd_eq_next.1 h
    exact exec_stRd_eq_next.2 ⟨hidle, hdsp, (readOut_withHost c pending sel s).symm⟩
  | wire i hi =>
    rw [exec_of_space_wire hi] at h ⊢
    cases h
    exact congrArg Host.Outcome.next (emit_withHost c pending _ _ s)
  | report i hi =>
    obtain ⟨hdsp, rfl⟩ := whenDsp_next_eq_next.1 (exec_of_space_report hi s ▸ h)
    exact exec_report_present hi (s := withHost c pending s) hdsp

end

/-- No instruction reads the requests. -/
theorem exec_with_pending {i : Instr} {s t : State} (h : exec i s = .next t) (pending : List HostRequest) :
    exec i { s with pending := pending } = .next { t with pending := pending } := by
  by_cases hreg : i = .crcClr ∨ (∃ b, i = .crcUpd b) ∨ i = .crcRd
  · obtain rfl | ⟨b, rfl⟩ | rfl := hreg <;>
    · obtain ⟨hidle, rfl⟩ := hostOp_next_eq_next.1 h
      exact hostOp_idle (s := { s with pending := pending }) hidle _
  · simp only [not_or, not_exists] at hreg
    obtain ⟨hclr, hupd, hrd⟩ := hreg
    have hexec := exec_withHost s.crc pending h hclr hupd hrd
    have ht : withHost s.crc pending t = { t with pending := pending } := by
      rw [withHost, ← exec_keeps_crc h hclr hupd]
    rwa [ht] at hexec

/-- Settles O11: the register's writers are two, and its third user only reads it. -/
theorem crcRegisterIsTheHostsAlone : Obligations.CrcRegisterIsTheHostsAlone := by
  unfold Obligations.CrcRegisterIsTheHostsAlone
  refine ⟨fun i s t h hclr hupd => exec_keeps_crc h hclr hupd, fun i s t c h hclr hupd hrd => ?_⟩
  obtain ⟨-, -, hpending, -⟩ := exec_keeps h
  have hexec := exec_withHost c s.pending h hclr hupd hrd
  have ht : withHost c s.pending t = { t with crc := c } := by rw [withHost, ← hpending]
  rwa [ht] at hexec

/-! ### Device State (R117) -/

/-- No valid bit of the first that the second has lost. -/
def KeepsValid (st st' : DeviceState) : Prop :=
  (st.onV = true → st'.onV = true) ∧ (st.brightnessV = true → st'.brightnessV = true)
    ∧ (st.tempCodeV = true → st'.tempCodeV = true)

theorem KeepsValid.refl (st : DeviceState) : KeepsValid st st := ⟨id, id, id⟩

theorem KeepsValid.trans {a b c : DeviceState} (hab : KeepsValid a b) (hbc : KeepsValid b c) : KeepsValid a c := by
  obtain ⟨hon, hbrightness, htemp⟩ := hab
  obtain ⟨hon', hbrightness', htemp'⟩ := hbc
  exact ⟨hon' ∘ hon, hbrightness' ∘ hbrightness, htemp' ∘ htemp⟩

theorem keepsValid_applyUpdate (k v : Byte) (st : DeviceState) : KeepsValid st (applyUpdate k v st).2 := by
  unfold applyUpdate
  split_ifs
  · exact ⟨fun _ => rfl, id, id⟩
  · exact ⟨id, fun _ => rfl, id⟩
  · exact ⟨id, id, fun _ => rfl⟩
  · exact .refl st

theorem keepsValid_writeSnapshot (st : DeviceState) (p b t : Byte) : KeepsValid st (st.writeSnapshot p b t) :=
  ⟨fun _ => rfl, fun _ => rfl, fun _ => rfl⟩

theorem keepsValid_applyReport (p : List Byte) (st : DeviceState) : KeepsValid st (applyReport p st).2 := by
  unfold applyReport
  split_ifs
  · exact .refl st
  · exact .refl st
  · exact keepsValid_applyUpdate _ _ st
  · exact .refl st
  · exact keepsValid_writeSnapshot st _ _ _
  · exact .refl st

theorem keepsValid_dspApply (gate : CondSet) (p : List Byte) (dc : CondSet) (st : DeviceState) :
    KeepsValid st (dspApply gate p dc st).2 := by
  unfold dspApply
  split
  · exact .refl st
  · exact keepsValid_applyReport p st

theorem keepsValid_reportAnswer (i : Instr) (st : DeviceState) : KeepsValid st (reportAnswer st i).2 := by
  cases i with
  | rptUpdPwr v => exact ⟨fun _ => rfl, id, id⟩
  | rptUpdBrt v => exact ⟨id, fun _ => rfl, id⟩
  | rptUpdCct v => exact ⟨id, id, fun _ => rfl⟩
  | rptSnap p u b t => exact keepsValid_writeSnapshot st p b t
  | rptUpdOther k v => exact keepsValid_applyUpdate k v st
  | _ => exact .refl st

theorem keepsValid_emit (r : Record) (n : Nat) (s : State) : KeepsValid s.st (emit r n s).st := by
  rw [emit_st]
  split
  · exact keepsValid_dspApply _ _ _ _
  · exact .refl s.st

theorem keepsValid_decodeLoop (n : Nat) (s : State) : KeepsValid s.st (decodeLoop n s).st := by
  induction n generalizing s with
  | zero => exact .refl s.st
  | succ n ih =>
    rw [decodeLoop]
    split
    · exact (keepsValid_emit _ _ s).trans (ih (frameStep s))
    · exact .refl s.st

theorem keepsValid_exec {i : Instr} {s t : State} (h : exec i s = .next t) : KeepsValid s.st t.st := by
  cases answered_of_exec h with
  | decBuf buf => exact keepsValid_decodeLoop buf.length (startDecode buf s)
  | dspApply p dc => exact keepsValid_dspApply s.params.gateMask p dc s.st
  | stRd sel =>
    obtain ⟨_, _, hread, -⟩ := readOut_eq sel s
    rw [hread]
    exact .refl s.st
  | wire i hi => exact keepsValid_emit _ _ s
  | report i hi => exact keepsValid_reportAnswer i s.st
  | _ => exact .refl s.st

/-- An operation that is neither DEC.BUF nor DSP.APPLY leaves Device State. -/
theorem exec_op_keeps_st {i : Instr} {s t : State} (h : exec i s = .next t) (hop : i.space = .op)
    (hbuf : ∀ b, i ≠ .decBuf b) (hdsp : ∀ p dc, i ≠ .dspApply p dc) : t.st = s.st := by
  cases answered_of_exec h with
  | decBuf buf => exact absurd rfl (hbuf buf)
  | dspApply p dc => exact absurd rfl (hdsp p dc)
  | stRd sel =>
    obtain ⟨_, _, hread, -⟩ := readOut_eq sel s
    rw [hread]
    rfl
  | wire i hi => cases hi.symm.trans hop
  | report i hi => cases hi.symm.trans hop
  | _ => rfl

/-- A unit leaves Device State unless the record it emits, the last on REC, is a REPORT. -/
theorem unitStep_keeps_st {u : List Byte} {s : State}
    (h : ∀ e, (unitStep u s).ports.records.getLast? = some e → e.record.kind ≠ .report) : (unitStep u s).st = s.st := by
  unfold unitStep at h ⊢
  obtain ⟨d, hrecords, -⟩ := emit_records { (decFrame u 0).1 with start := s.cursor + (decFrame u 0).1.start }
    (s.cursor + (decFrame u 0).2) s
  have hkind := h _ (by rw [hrecords, List.getLast?_concat])
  rw [emit_st]
  exact if_neg (by simp [hkind])

/-- Settles O37: the dispatcher sets valid bits and never clears one, and only DEC.BUF, DSP.APPLY and the
units reach it, for a REPORT. -/
theorem deviceStateIsOwnedByReports : Obligations.DeviceStateIsOwnedByReports := by
  unfold Obligations.DeviceStateIsOwnedByReports
  refine ⟨fun i s t h => keepsValid_exec h, fun i s t h hop hbuf hdsp => exec_op_keeps_st h hop hbuf hdsp,
    fun i s t h hwire hlast => ?_⟩
  rw [exec_of_space_wire hwire] at h
  cases h
  exact unitStep_keeps_st hlast

/-! ### Fields a step leaves -/

theorem Took.keeps {s s' : State} {sp : Space} {bs : List Byte} (h : Took s sp bs s') :
    s'.params = s.params ∧ s'.device = s.device ∧ s'.rx = s.rx := by
  cases h <;> exact ⟨rfl, rfl, rfl⟩

/-- No step touches the parameters or the device number. -/
theorem step_keeps {s t : State} (h : step s = .next t) : t.params = s.params ∧ t.device = s.device := by
  obtain ⟨-, rfl⟩ | ⟨rest, -, rfl⟩ | ⟨sp, bs, s', i, htook, -, hexec⟩ | ⟨sp, bs, s', htook, rfl⟩ := step_eq_next h
  · exact ⟨rfl, rfl⟩
  · exact ⟨rfl, rfl⟩
  · obtain ⟨hparams, hdevice, -⟩ := htook.keeps
    obtain ⟨hparams', -, -, hdevice'⟩ := exec_keeps hexec
    exact ⟨hparams'.trans hparams, hdevice'.trans hdevice⟩
  · obtain ⟨hparams, hdevice, -⟩ := htook.keeps
    exact ⟨hparams, hdevice⟩

/-- Settles O42: taking bytes, an instruction, an answer and a reset all leave the parameters. -/
theorem parametersNeverChange : Obligations.ParametersNeverChange := by
  unfold Obligations.ParametersNeverChange
  intro s t h
  exact (step_keeps h).1

theorem space_of_decodeIn {sp : Space} {bs : List Byte} {i : Instr} (h : decodeIn sp bs = .ok i) : i.space = sp := by
  obtain ⟨-, hspace, -⟩ := decodedInstructionsAreWellFormed sp bs i h
  exact hspace

/-- While bytes are left to decode, what a step takes is no operation. -/
theorem Took.space_ne_op {s s' : State} {sp : Space} {bs : List Byte} (h : Took s sp bs s')
    (hcursor : s.cursor < s.rx.length) : sp ≠ .op := by
  cases h with
  | operation hidle _ => exact absurd hcursor (busy_eq_false.1 hidle).2
  | unit _ _ => decide
  | report _ => decide

/-- Settles O43: RX has one writer, an operation, and no operation is taken while bytes are left. -/
theorem rxBufferIsConstantDuringDecode : Obligations.RxBufferIsConstantDuringDecode := by
  unfold Obligations.RxBufferIsConstantDuringDecode
  refine ⟨fun i s t h hbuf => exec_keeps_rx h hbuf, fun s t hcursor hreset h => ?_⟩
  obtain ⟨-, rfl⟩ | ⟨rest, hpending, -⟩ | ⟨sp, bs, s', i, htook, hdecode, hexec⟩ | ⟨sp, bs, s', htook, rfl⟩ :=
    step_eq_next h
  · rfl
  · exact absurd hpending (hreset rest)
  · obtain ⟨-, -, hrx⟩ := htook.keeps
    have hbuf (b : List Byte) : i ≠ .decBuf b := by
      rintro rfl
      exact htook.space_ne_op hcursor (space_of_decodeIn hdecode).symm
    rw [exec_keeps_rx hexec hbuf, hrx]
  · obtain ⟨-, -, hrx⟩ := htook.keeps
    exact hrx

/-! ### Instances (R28) -/

/-- The system after a step that answers. -/
theorem stepAt_of_step {sys : System} {k : Nat} {s s' : State} (hk : sys[k]? = some s) (h : step s = .next s') :
    sys.stepAt k = .next (sys.set k s') := by
  simp only [System.stepAt, hk, h]

theorem stepAt_eq_next {sys sys' : System} {k : Nat} (h : sys.stepAt k = .next sys') :
    sys' = sys ∨ ∃ s s', sys[k]? = some s ∧ step s = .next s' ∧ sys' = sys.set k s' := by
  unfold System.stepAt at h
  split at h
  · cases h
    exact .inl rfl
  · split at h <;> cases h
    exact .inr ⟨_, _, ‹_›, ‹_›, rfl⟩

theorem map_device_set {sys : System} {k : Nat} {s s' : State} (hk : sys[k]? = some s) (h : s'.device = s.device) :
    (sys.set k s').map (·.device) = sys.map (·.device) := by
  obtain ⟨hlt, rfl⟩ := List.getElem?_eq_some_iff.1 hk
  have hentry : (sys.map (·.device))[k]'(by rwa [List.length_map]) = (sys[k]).device := List.getElem_map _
  rw [List.map_set, h, ← hentry, List.set_getElem_self]

/-- Settles O47: a step replaces one entry of the list, and keeps its device number. -/
theorem instancesShareNothing : Obligations.InstancesShareNothing := by
  unfold Obligations.InstancesShareNothing
  refine ⟨fun sys sys' k s s' hk hsys h => ?_, fun sys sys' k hwf hsys => ?_⟩
  · rw [stepAt_of_step hk h] at hsys
    cases hsys
    obtain ⟨hlt, -⟩ := List.getElem?_eq_some_iff.1 hk
    exact ⟨by rw [List.getElem?_set_self hlt], fun j hj => List.getElem?_set_ne hj.symm⟩
  · obtain rfl | ⟨s, s', hk, h, rfl⟩ := stepAt_eq_next hsys
    · exact hwf
    · obtain ⟨hone, hnodup⟩ := hwf
      exact ⟨by rwa [List.length_set], by rwa [map_device_set hk (step_keeps h).2]⟩

end Sys2Proof.Proofs
end

section
/-! PROOFS. The statements about the whole machine: conditions and reset, the invariant, where
instructions complete and where they are refused, and runs of requests. -/

namespace Sys2Proof.Proofs

open Sys2Proof Sys2Proof.Machine

/-! ### Conditions (60_exceptions.md R123, R124) -/

theorem getLsbD_only (c : Condition) {k : Nat} (h : k < 8) : (only c).getLsbD k = decide (k = c.code - 1) := by
  have hcode : c.code - 1 < 8 := by cases c <;> decide
  simp only [only, BitVec.getLsbD_shiftLeft, BitVec.getLsbD_one, h, decide_true, Bool.true_and]
  rw [Bool.eq_iff_iff]
  simp only [Bool.and_eq_true, Bool.not_eq_true', decide_eq_false_iff_not, decide_eq_true_eq, Nat.zero_lt_succ,
    true_and]
  omega

/-- Settles O38: `note` is an or with the one bit of the condition. -/
theorem notingAConditionAddsItsBit : Obligations.NotingAConditionAddsItsBit := by
  unfold Obligations.NotingAConditionAddsItsBit
  refine ⟨rfl, fun cs c k h => ?_⟩
  rw [note, BitVec.getLsbD_or, getLsbD_only c h]

/-! ### Reset (70_reset_and_hazards.md R143) -/

/-- Settles O39: the oldest request is found before anything in progress. -/
theorem resetClearsTheInstance : Obligations.ResetClearsTheInstance := by
  unfold Obligations.ResetClearsTheInstance
  refine ⟨⟨rfl, rfl, rfl, rfl, rfl⟩, fun s rest hpending => ?_⟩
  exact ⟨_, step_of_fetch_reset (fetch_reset hpending), rfl, rfl, rfl, rfl, rfl, rfl, rfl, rfl, rfl⟩

/-! ### The invariant -/

theorem accepts_zero (p : Params) : accepts p 0 = true := by
  unfold accepts
  split <;> simp

theorem inv_reset (rest : List HostRequest) (s : State) : Inv (resetInstance rest s) :=
  ⟨le_refl _, accepts_zero s.params, nofun, nofun, nofun⟩

/-- Where buffer, cursor and payload stay, or the payload is taken, the invariant asks for the ports. -/
theorem inv_of_ports {s t : State} (h : Inv s) (hparams : t.params = s.params) (hrx : t.rx = s.rx)
    (hcursor : t.cursor = s.cursor) (hreport : t.report = s.report ∨ t.report = none)
    (htx : ∀ p, t.ports.tx = some p → GoodPacket p) (hrecords : ∀ e ∈ t.ports.records, e.Permitted t.params) :
    Inv t := by
  obtain ⟨hinside, haccepts, hpayload, -, -⟩ := h
  refine ⟨by rw [hcursor, hrx]; exact hinside, by rw [hparams, hrx]; exact haccepts, fun p hp => ?_, htx, hrecords⟩
  obtain hsame | hnone := hreport
  · exact hpayload p (hsame ▸ hp)
  · rw [hnone] at hp
    cases hp

/-- A delivery on RES alone keeps the invariant. -/
theorem inv_of_quiet_ports {s t : State} (h : Inv s) (hparams : t.params = s.params) (hrx : t.rx = s.rx)
    (hcursor : t.cursor = s.cursor) (hreport : t.report = s.report) (htx : t.ports.tx = none)
    (hrecords : t.ports.records = []) : Inv t :=
  inv_of_ports h hparams hrx hcursor (.inl hreport) (by rw [htx]; nofun) (by rw [hrecords]; nofun)

theorem goodPacket_append_checksum {header : List Byte} (hlen : header.length = 10)
    (hopen : header.take 4 = [0x4C#8, 0x54#8, 0x09#8, 0x00#8]) : GoodPacket (header ++ checksum header) := by
  refine ⟨by rw [List.length_append, hlen, length_checksum], ?_,
    (crc16_append_eq_zero_iff _ _ (length_checksum _)).2 rfl⟩
  rw [List.take_append_of_le_length (by omega), hopen]

theorem goodPacket_of_commandPorts {sub : Byte} {v : Half} {p : List Byte} (h : (commandPorts sub v).tx = some p) :
    GoodPacket p := by
  unfold commandPorts at h
  split at h <;> cases h
  exact goodPacket_append_checksum (header := commandHeader sub (byteOf v)) rfl rfl

theorem goodPacket_of_wrapperPorts {strict : Bool} {sub : Byte} {low high : Int} {v : Half} {p : List Byte}
    (h : (wrapperPorts strict sub low high v).tx = some p) : GoodPacket p := by
  unfold wrapperPorts at h
  split at h
  · cases h
  · exact goodPacket_of_commandPorts h

/-- Whatever an encode puts on TX is a good packet. -/
theorem goodPacket_of_encodePorts {params : Params} {i : Instr} {p : List Byte}
    (h : (encodePorts params i).tx = some p) : GoodPacket p := by
  cases i with
  | encCmd sub v => exact goodPacket_of_commandPorts h
  | encPwr v => exact goodPacket_of_wrapperPorts h
  | encBrt v => exact goodPacket_of_wrapperPorts h
  | encCct v => exact goodPacket_of_wrapperPorts h
  | encQry =>
    cases h
    rw [queryPacket_eq_header_append_checksum]
    exact goodPacket_append_checksum rfl rfl
  | _ => cases h

theorem records_encodePorts {params : Params} {i : Instr} : (encodePorts params i).records = [] := by
  have hcommand (sub : Byte) (v : Half) : (commandPorts sub v).records = [] := by
    unfold commandPorts
    split <;> rfl
  have hwrapper (strict : Bool) (sub : Byte) (low high : Int) (v : Half) :
      (wrapperPorts strict sub low high v).records = [] := by
    unfold wrapperPorts
    split
    · rfl
    · exact hcommand sub v
  cases i with
  | encCmd sub v => exact hcommand sub v
  | encPwr v => exact hwrapper _ _ _ _ v
  | encBrt v => exact hwrapper _ _ _ _ v
  | encCct v => exact hwrapper _ _ _ _ v
  | _ => rfl

theorem inv_startDecode {buf : List Byte} {s : State} (h : Inv s) (haccepts : accepts s.params buf.length = true) :
    Inv (startDecode buf s) := by
  obtain ⟨-, -, hpayload, -, -⟩ := h
  exact ⟨Nat.zero_le _, haccepts, hpayload, nofun, nofun⟩

/-- A frame step inside the buffer stays inside it and adds a permitted record. -/
theorem inv_frameStep {s : State} (h : Inv s) (hcursor : s.cursor < s.rx.length) : Inv (frameStep s) := by
  obtain ⟨-, haccepts, hpayload, htx, hrecords⟩ := h
  obtain ⟨d, hemitted, hd⟩ := emit_records (decFrame s.rx s.cursor).1 (decFrame s.rx s.cursor).2 s
  refine ⟨?_, ?_, ?_, ?_, fun e he => ?_⟩
  · simpa [frameStep] using (decFrame_next hcursor).2
  · simpa [frameStep] using haccepts
  · simpa [frameStep] using hpayload
  · simpa [frameStep] using htx
  · rw [frameStep, hemitted, List.mem_append, List.mem_singleton] at he
    rw [frameStep, emit_params]
    obtain hold | rfl := he
    · exact hrecords e hold
    · exact ⟨permitted_decFrame s.rx s.cursor, hd⟩

theorem inv_decodeLoop {n : Nat} {s : State} (h : Inv s) : Inv (decodeLoop n s) := by
  induction n generalizing s with
  | zero => exact h
  | succ n ih =>
    rw [decodeLoop]
    split
    case isTrue hcursor => exact ih (inv_frameStep h hcursor)
    case isFalse => exact h

/-- Every instruction but a wire unit keeps the invariant from any state. -/
theorem inv_of_exec {i : Instr} {s t : State} (h : Inv s) (hexec : exec i s = .next t) (hwire : i.space ≠ .wire) :
    Inv t := by
  cases answered_of_exec hexec with
  | encode i hi =>
    refine inv_of_ports h rfl rfl rfl (.inl rfl) (fun p hp => goodPacket_of_encodePorts hp) ?_
    rw [deliver_ports, records_encodePorts]
    nofun
  | decBuf buf haccepts => exact inv_decodeLoop (inv_startDecode h haccepts)
  | stRd sel =>
    obtain ⟨_, _, hread, -⟩ := readOut_eq sel s
    rw [hread]
    exact inv_of_quiet_ports h rfl rfl rfl rfl rfl rfl
  | wire i hi => exact absurd hi hwire
  | _ => exact inv_of_quiet_ports h rfl rfl rfl rfl rfl rfl

/-- The unit a step decodes at the cursor is one pass of DEC.BUF's loop. -/
theorem exec_unit_eq_frameStep {s : State} {i : Instr} (hcursor : s.cursor < s.rx.length)
    (hdecode : decodeIn .wire (s.rx.drop s.cursor) = .ok i) : exec i s = .next (frameStep s) := by
  obtain ⟨-, hspace, hencode⟩ := decodeWire_eq_ok hdecode
  rw [exec_of_space_wire hspace, hencode, ← frameStep_eq_unitStep hcursor.le]

theorem Took.inv {s s' : State} {sp : Space} {bs : List Byte} (htook : Took s sp bs s') (h : Inv s) : Inv s' := by
  have hports := h
  obtain ⟨-, -, -, htx, hrecords⟩ := hports
  cases htook with
  | operation hidle hpending => exact inv_of_ports h rfl rfl rfl (.inl rfl) htx hrecords
  | unit hreport hcursor => exact h
  | report hreport => exact inv_of_ports h rfl rfl rfl (.inr rfl) htx hrecords

/-- Settles O41: taking bytes and answering a payload keep it, a unit at the cursor is a frame step, and
every other instruction keeps it from any state. -/
theorem stepKeepsTheInvariant : Obligations.StepKeepsTheInvariant := by
  unfold Obligations.StepKeepsTheInvariant
  intro s t h hstep
  obtain ⟨-, rfl⟩ | ⟨rest, -, rfl⟩ | ⟨sp, bs, s', i, htook, hdecode, hexec⟩ | ⟨sp, bs, s', htook, rfl⟩ :=
    step_eq_next hstep
  · exact h
  · exact inv_reset rest s
  · by_cases hwire : i.space = .wire
    · obtain rfl : sp = .wire := (space_of_decodeIn hdecode).symm.trans hwire
      cases htook with
      | unit hreport hcursor =>
        rw [exec_unit_eq_frameStep hcursor hdecode] at hexec
        cases hexec
        exact inv_frameStep h hcursor
    · exact inv_of_exec (htook.inv h) hexec hwire
  · exact inv_of_quiet_ports (htook.inv h) rfl rfl rfl rfl rfl rfl

/-- Settles O40: nothing is in progress and nothing is delivered. -/
theorem resetStateMeetsTheInvariant : Obligations.ResetStateMeetsTheInvariant :=
  inv_reset [] State.reset

/-! ### Where instructions answer -/

theorem exec_ne_fault (i : Instr) (s : State) (f : Fault) : exec i s ≠ .fault f := by
  intro h
  induction i using familyCases with
  | crcClr => cases hostOp_eq_fault h
  | crcUpd b => cases hostOp_eq_fault h
  | crcRd => cases hostOp_eq_fault h
  | crcSum l => cases hostOp_eq_fault h
  | encode i hi => cases hostOp_eq_fault (exec_of_isEncode hi s ▸ h)
  | decBuf buf =>
    have heffect := hostOp_eq_fault (exec_decBuf buf s ▸ h)
    split at heffect <;> cases heffect
  | dspApply p dc =>
    have heffect := whenDsp_eq_fault (hostOp_eq_fault (exec_dspApply p dc s ▸ h))
    split at heffect <;> cases heffect
  | stRd sel => cases whenDsp_eq_fault (hostOp_eq_fault (exec_stRd sel s ▸ h))
  | wire i hi =>
    rw [exec_of_space_wire hi] at h
    cases h
  | report i hi => cases whenDsp_eq_fault (exec_of_space_report hi s ▸ h)

theorem reject_ne_fault (e : DecodeError) (bs : List Byte) (s : State) (f : Fault) : reject e bs s ≠ .fault f := by
  intro h
  cases e with
  | shortPayload => cases whenDsp_eq_fault h
  | _ => cases h

/-- Settles O44: neither an instruction nor a rejection faults. -/
theorem noStepFaults : Obligations.NoStepFaults := by
  unfold Obligations.NoStepFaults
  intro s f h
  cases hfetch : fetch s with
  | idle =>
    rw [step_of_fetch_idle hfetch] at h
    cases h
  | reset rest =>
    rw [step_of_fetch_reset hfetch] at h
    cases h
  | bytes sp bs s' =>
    cases hdecode : decodeIn sp bs with
    | ok i => exact exec_ne_fault i s' f (step_of_decode hfetch hdecode ▸ h)
    | error e => exact reject_ne_fault e bs s' f (step_of_reject hfetch hdecode ▸ h)

/-- Settles O45, family by family: with nothing in progress the guards of every instruction pass. -/
theorem everyInstructionCompletesWhenIdle : Obligations.EveryInstructionCompletesWhenIdle := by
  unfold Obligations.EveryInstructionCompletesWhenIdle
  intro i s hidle hdsp hbuf hpayload
  induction i using familyCases with
  | crcClr => exact ⟨_, hostOp_idle hidle _⟩
  | crcUpd b => exact ⟨_, hostOp_idle hidle _⟩
  | crcRd => exact ⟨_, hostOp_idle hidle _⟩
  | crcSum l => exact ⟨_, hostOp_idle hidle _⟩
  | encode i hi => exact ⟨_, exec_of_isEncode_idle hi hidle⟩
  | decBuf buf => exact ⟨_, exec_decBuf_eq_next.2 ⟨hidle, hbuf buf rfl, rfl⟩⟩
  | dspApply p dc => exact ⟨_, exec_dspApply_idle hidle hdsp (hpayload p dc rfl) dc⟩
  | stRd sel => exact ⟨_, exec_stRd_idle hidle hdsp sel⟩
  | wire i hi => exact ⟨_, exec_of_space_wire hi s⟩
  | report i hi => exact ⟨_, exec_report_present hi hdsp⟩

/-! ### Where instructions are refused -/

theorem accepts_eq_false {p : Params} {m n : Nat} (hmax : p.nmax = some m) (h : m < n) : accepts p n = false := by
  simp [accepts, hmax, h]

theorem decodePayload_long {p : List Byte} (h : 251 < p.length) : decodePayload p = .error .longPayload :=
  if_neg (Nat.not_le.2 h)

/-- Settles O46: the guard that refuses is the outermost that does not pass. -/
theorem whereInstructionsAreRefused : Obligations.WhereInstructionsAreRefused := by
  unfold Obligations.WhereInstructionsAreRefused
  refine ⟨fun i s hop hbusy => ?_, fun buf s m hidle hmax hlong => ?_, fun i s hdsp hreport => ?_,
    fun i s hidle hdsp hi => ?_, fun p dc s hidle hdsp hlong => ?_, fun p s hreset hreport hlong => ?_⟩
  · obtain ⟨o, ho⟩ := exec_of_space_op hop s
    rw [ho, hostOp_busy hbusy]
  · rw [exec_decBuf, hostOp_idle hidle, accepts_eq_false hmax hlong]
    rfl
  · rw [exec_of_space_report hreport, whenDsp_absent hdsp]
  · obtain ⟨p, dc, rfl⟩ | ⟨sel, rfl⟩ := hi
    · rw [exec_dspApply, hostOp_idle hidle, whenDsp_absent hdsp]
    · rw [exec_stRd, hostOp_idle hidle, whenDsp_absent hdsp]
  · rw [exec_dspApply, hostOp_idle hidle, whenDsp_present hdsp, if_neg (by rw [fitsPayload_iff]; omega)]
  · rw [step_of_reject (fetch_report hreset hreport) (decodePayload_long hlong)]
    rfl

/-! ### Runs of requests (20_memory.md R43, 70_reset_and_hazards.md R146) -/

theorem runAll_cons_eq_next {i : Instr} {is : List Instr} {s t : State} (h : runAll (i :: is) s = .next t) :
    ∃ u, exec i s = .next u ∧ runAll is u = .next t := by
  unfold runAll at h
  split at h
  · exact ⟨_, ‹_›, h⟩
  · cases h
  · cases h

/-- A host operation that answers is at its end. -/
theorem idle_of_exec_op {i : Instr} {s t : State} (h : exec i s = .next t) (hop : i.space = .op) :
    t.busy = false := by
  obtain ⟨o, ho⟩ := exec_of_space_op hop s
  obtain ⟨hidle, -⟩ := hostOp_eq_next.1 (ho ▸ h)
  cases answered_of_exec h with
  | decBuf buf =>
    obtain ⟨-, hreport, -, -⟩ := exec_keeps h
    have hrx := congrArg State.rx (frame_of_exec_decBuf h)
    refine busy_eq_false.2 ⟨hreport.trans (busy_eq_false.1 hidle).1, ?_⟩
    rw [cursor_of_exec_decBuf h, hrx]
    exact lt_irrefl _
  | stRd sel =>
    obtain ⟨_, _, hread, -⟩ := readOut_eq sel s
    rw [hread]
    exact hidle
  | wire i hi => cases hi.symm.trans hop
  | report i hi => cases hi.symm.trans hop
  | _ => exact hidle

/-- A step takes the oldest operation from the requests and leaves the others. -/
theorem step_operation {i : Instr} {s u : State} (hop : i.space = .op) (hidle : s.busy = false)
    (h : exec i s = .next u) (rest : List HostRequest) :
    step { s with pending := .operation (encode i) :: rest } = .next { u with pending := rest } := by
  rw [step_of_decode (fetch_operation (by exact hidle) rfl) (decodeOp_encode hop)]
  exact exec_with_pending h rest

/-- Settles O48, by induction on the operations: each step is the next operation, which ends idle and
leaves the requests after it. -/
theorem aRunIsItsOperationsInIssueOrder : Obligations.ARunIsItsOperationsInIssueOrder := by
  unfold Obligations.ARunIsItsOperationsInIssueOrder
  intro is s t hop hidle hpending h
  induction is generalizing s with
  | nil =>
    cases h
    rw [List.map_nil, ← hpending]
    rfl
  | cons i is ih =>
    obtain ⟨hi, his⟩ := List.forall_mem_cons.1 hop
    obtain ⟨u, hexec, hrest⟩ := runAll_cons_eq_next h
    obtain ⟨-, -, hpending', -⟩ := exec_keeps hexec
    rw [List.length_cons, List.map_cons, run_succ is.length (M := Sys2Proof.core) (step_operation hi hidle hexec _)]
    exact ih u his (idle_of_exec_op hexec hi) (hpending'.trans hpending) hrest

end Sys2Proof.Proofs
end
